-- ==== Sys2Proof/Word.lean ====
section
/-! DEFINITION. The plain data of the block: levels, bytes, selectors, samples, slots, records, and the names of phases,
directions, edges and options. -/

namespace Sys2Proof

/-- A logic level, one bit (R7): `false` is 0 and `true` is 1. -/
abbrev Level := Bool

/-- The 8-bit data word and record payload (R59, R89). -/
abbrev Byte := BitVec 8

/-- The 10-bit transition selector `TS` (R62). -/
abbrev Selector := BitVec 10

/-- The value of an option (R29, R57): which clock edge samples the data line. -/
inductive EdgeOpt where
  | rise
  | fall
deriving DecidableEq, Repr

/-- What one line does between the previous sample and this one (R73). Rising and falling at once cannot be formed (R64). -/
inductive Edge where
  | none
  | rise
  | fall
deriving DecidableEq, Repr

/-- The state machine's wait point (R22, R55), in the order of the codes 0 to 7. -/
inductive Phase where
  | detect
  | htodBit
  | dtohBit
  | htodTrail
  | ackWaitData
  | ackWaitClk
  | dtohTrail
  | reserved
deriving DecidableEq, Repr

/-- The direction state (R23, R56), in the order of the codes 0 to 3; code 3 is reserved. -/
inductive Direction where
  | idle
  | hostToDevice
  | deviceToHost
  | reserved
deriving DecidableEq, Repr

/-- One input sample `{idx, clk, dat}` (R71). Indices are unbounded naturals (R6, `SAMPLE_W`). -/
structure Sample where
  idx : Nat
  clk : Level
  dat : Level
deriving DecidableEq, Repr, Inhabited

/-- A captured bit (R25, R61): its value, the sample that captured it, and the end of its span (the spec's `end`). -/
structure Slot where
  value    : Level
  startIdx : Nat
  endIdx   : Nat
deriving DecidableEq, Repr, Inhabited

/-- The output record categories (R58), in the order of the codes 0 to 7. -/
inductive Category where
  | bit
  | startBit
  | stopBit
  | parityOk
  | parityErr
  | dataBit
  | word
  | ack
deriving DecidableEq, Repr

/-- An output record (R60) over the span `[startIdx, endIdx)`. -/
structure Record where
  cat      : Category
  startIdx : Nat
  endIdx   : Nat
  payload  : Byte
deriving DecidableEq, Repr

/-- What `Capture` returns (R30, R87). -/
inductive CaptureStatus where
  | needMoreBits
  | frameComplete
deriving DecidableEq, Repr

end Sys2Proof
end

