-- ==== Sys2Proof/Config.lean ====
section
/-! DEFINITION. The block's parameters (R6) and the values the spec leaves open. -/

namespace Sys2Proof.Config

/-- The idle data level (R6, R10). -/
abbrev idleLevel : Level := true

/-- `opt_htod_edge` where the environment supplies no choice (R6, R152). -/
abbrev defaultHtodEdge : EdgeOpt := .rise

/-- `opt_dtoh_edge` where the environment supplies no choice (R6, R152). -/
abbrev defaultDtohEdge : EdgeOpt := .fall

/-- The least `OUT_BUF` (R6, R78): how many records the output side must take in one step. -/
abbrev outBufMin : Nat := 15

/-- `LABEL_TEXT` (R6, R60): the labels of a record of every category but `word`. Open in the spec, so uninterpreted (log 13). -/
opaque labelText : Category → Byte → List String

/-- What a read of an empty slot would give: any value (R25, R41, I11). Arguments: the slot number and `last_idx`, so that two
steps need not agree. No run reads it (log 7). -/
opaque emptySlot : Nat → Nat → Slot

end Sys2Proof.Config
end

