-- ==== Sys2Proof/Syntax.lean ====
section
/-! DEFINITION. The transitions of the frame state machine, one constructor per row of spec/opcode_table.json (R3, R63). -/

namespace Sys2Proof

/-- The fields of a constructor are the selector bits its row leaves free (R63): `oh` and `od` the two options, `clk` and `dat`
the edges of the clock and data line, `ph` the phase. The sample itself is no field: it is an operand the block holds (R62). -/
inductive Instr where
  | init      (oh od : EdgeOpt)
  | detectH   (oh od : EdgeOpt) (dat : Edge)
  | detectDR  (oh od : EdgeOpt) (clk : Edge)
  | detectDF  (oh od : EdgeOpt) (clk : Edge)
  | hbitR     (od : EdgeOpt) (dat : Edge)
  | hbitF     (od : EdgeOpt) (dat : Edge)
  | dbitR     (oh : EdgeOpt) (dat : Edge)
  | dbitF     (oh : EdgeOpt) (dat : Edge)
  | htrail    (oh od : EdgeOpt) (dat : Edge)
  | acks      (oh od : EdgeOpt) (clk : Edge)
  | acke      (oh od : EdgeOpt) (dat : Edge)
  | dtrail    (oh od : EdgeOpt) (dat : Edge)
  | rsvdPhase (oh od : EdgeOpt) (clk dat : Edge)
  | hold      (ph : Phase) (oh od : EdgeOpt) (clk dat : Edge)
deriving DecidableEq, Repr

end Sys2Proof
end

