-- ==== Sys2Proof/WellFormed.lean ====
section
/-! DEFINITION. Which terms of `Instr` a selector can stand for. -/

namespace Sys2Proof

/-- The clock edge an option names. -/
def EdgeOpt.edge : EdgeOpt → Edge
  | .rise => .rise
  | .fall => .fall

/-- Whether a sample with these edges satisfies the wait condition of a phase: the third column of R55's table. The reserved
phase waits for nothing and always selects `RSVD.PHASE` (R63). -/
def Phase.fires (ph : Phase) (oh od : EdgeOpt) (clk dat : Edge) : Bool :=
  match ph with
  | .detect      => clk == .fall || dat != .none
  | .htodBit     => clk == oh.edge
  | .dtohBit     => clk == od.edge
  | .htodTrail   => clk == .rise
  | .ackWaitData => dat == .rise
  | .ackWaitClk  => clk == .rise
  | .dtohTrail   => clk == .rise
  | .reserved    => true

/-- `DETECT.DR` and `DETECT.DF` require `CF = 0` (R104, R105); `HOLD` is a selector no other row matches (R113). Every other
term is well formed. -/
def Instr.wellFormed : Instr → Bool
  | .init _ _           => true
  | .detectH _ _ _      => true
  | .detectDR _ _ clk   => clk != .fall
  | .detectDF _ _ clk   => clk != .fall
  | .hbitR _ _          => true
  | .hbitF _ _          => true
  | .dbitR _ _          => true
  | .dbitF _ _          => true
  | .htrail _ _ _       => true
  | .acks _ _ _         => true
  | .acke _ _ _         => true
  | .dtrail _ _ _       => true
  | .rsvdPhase _ _ _ _  => true
  | .hold ph oh od clk dat => !ph.fires oh od clk dat

end Sys2Proof
end

