-- ==== Sys2Proof/Decode.lean ====
section
/-! DEFINITION. The encodings of 30_encoding.md: the codes of phases, directions, options and categories, the selector's
layout, the opcode map, the decoder (total, rejecting by name) and the encoder. -/

namespace Sys2Proof

/-- R55. -/
def Phase.code : Phase → BitVec 3
  | .detect      => 0b000#3
  | .htodBit     => 0b001#3
  | .dtohBit     => 0b010#3
  | .htodTrail   => 0b011#3
  | .ackWaitData => 0b100#3
  | .ackWaitClk  => 0b101#3
  | .dtohTrail   => 0b110#3
  | .reserved    => 0b111#3

/-- R55, read the other way. -/
def Phase.ofCode (c : BitVec 3) : Phase :=
  match c.toNat with
  | 0 => .detect
  | 1 => .htodBit
  | 2 => .dtohBit
  | 3 => .htodTrail
  | 4 => .ackWaitData
  | 5 => .ackWaitClk
  | 6 => .dtohTrail
  | _ => .reserved

/-- R56. -/
def Direction.code : Direction → BitVec 2
  | .idle         => 0b00#2
  | .hostToDevice => 0b01#2
  | .deviceToHost => 0b10#2
  | .reserved     => 0b11#2

/-- R56, read the other way. -/
def Direction.ofCode (c : BitVec 2) : Direction :=
  match c.toNat with
  | 0 => .idle
  | 1 => .hostToDevice
  | 2 => .deviceToHost
  | _ => .reserved

/-- R57. -/
def EdgeOpt.code : EdgeOpt → BitVec 1
  | .rise => 0#1
  | .fall => 1#1

/-- R57, read the other way. -/
def EdgeOpt.ofCode (c : BitVec 1) : EdgeOpt :=
  if c = 0#1 then .rise else .fall

/-- `cfg[1:0] = {opt_dtoh_edge, opt_htod_edge}` (R29, R57). -/
def configWord (htod dtoh : EdgeOpt) : BitVec 2 :=
  dtoh.code ++ htod.code

/-- R58. -/
def Category.code : Category → BitVec 3
  | .bit       => 0#3
  | .startBit  => 1#3
  | .stopBit   => 2#3
  | .parityOk  => 3#3
  | .parityErr => 4#3
  | .dataBit   => 5#3
  | .word      => 6#3
  | .ack       => 7#3

/-- R58, read the other way. -/
def Category.ofCode (c : BitVec 3) : Category :=
  match c.toNat with
  | 0 => .bit
  | 1 => .startBit
  | 2 => .stopBit
  | 3 => .parityOk
  | 4 => .parityErr
  | 5 => .dataBit
  | 6 => .word
  | _ => .ack

/-- The fields of the selector (R62), highest bit first. -/
structure Fields where
  pv : Bool
  ph : Phase
  oh : EdgeOpt
  od : EdgeOpt
  cr : Bool
  cf : Bool
  dr : Bool
  df : Bool
deriving DecidableEq, Repr

/-- `TS = {PV, PH, OH, OD, CR, CF, DR, DF}` (R62). -/
def packFields (f : Fields) : Selector :=
  BitVec.ofBool f.pv ++ f.ph.code ++ f.oh.code ++ f.od.code ++
    BitVec.ofBool f.cr ++ BitVec.ofBool f.cf ++ BitVec.ofBool f.dr ++ BitVec.ofBool f.df

/-- The fields at the bit positions of R62's table. -/
def unpackFields (ts : Selector) : Fields where
  pv := ts.getLsbD 9
  ph := Phase.ofCode (ts.extractLsb' 6 3)
  oh := EdgeOpt.ofCode (ts.extractLsb' 5 1)
  od := EdgeOpt.ofCode (ts.extractLsb' 4 1)
  cr := ts.getLsbD 3
  cf := ts.getLsbD 2
  dr := ts.getLsbD 1
  df := ts.getLsbD 0

/-- One line's edge from its rising and falling bit. Both set is impossible (R64) and is rejected before this is read. -/
def Edge.ofBits (r f : Bool) : Edge :=
  if r then .rise else if f then .fall else .none

def Edge.riseBit (e : Edge) : Bool := e == .rise

def Edge.fallBit (e : Edge) : Bool := e == .fall

/-- The clock edge the selector shows. -/
def Fields.clk (f : Fields) : Edge := Edge.ofBits f.cr f.cf

/-- The data edge the selector shows. -/
def Fields.dat (f : Fields) : Edge := Edge.ofBits f.dr f.df

/-- R64, first class: `CR = CF = 1`, `DR = DF = 1`, or `PV = 0` with an edge bit set. -/
def Fields.impossible (f : Fields) : Bool :=
  (f.cr && f.cf) || (f.dr && f.df) || (!f.pv && (f.cr || f.cf || f.dr || f.df))

/-- R64, second class, less `RSVD.PHASE`, which has a row of its own: `PV = 0` and `PH` not `000`. -/
def Fields.unreachable (f : Fields) : Bool :=
  !f.pv && f.ph != .detect

/-- A row of the opcode map (R63): it is selected when `TS &&& mask = pattern`. -/
structure Row where
  mnemonic : String
  pattern  : Selector
  mask     : Selector
  build    : Fields → Instr

/-- The opcode map of R63 and spec/opcode_table.json, in their order; `HOLD` is last because it has the lowest priority. -/
def opcodeMap : List Row := [
  ⟨"INIT",       0x000#10, 0x3C0#10, fun f => .init f.oh f.od⟩,
  ⟨"DETECT.H",   0x204#10, 0x3C4#10, fun f => .detectH f.oh f.od f.dat⟩,
  ⟨"DETECT.DR",  0x202#10, 0x3C6#10, fun f => .detectDR f.oh f.od f.clk⟩,
  ⟨"DETECT.DF",  0x201#10, 0x3C5#10, fun f => .detectDF f.oh f.od f.clk⟩,
  ⟨"HBIT.R",     0x248#10, 0x3E8#10, fun f => .hbitR f.od f.dat⟩,
  ⟨"HBIT.F",     0x264#10, 0x3E4#10, fun f => .hbitF f.od f.dat⟩,
  ⟨"DBIT.R",     0x288#10, 0x3D8#10, fun f => .dbitR f.oh f.dat⟩,
  ⟨"DBIT.F",     0x294#10, 0x3D4#10, fun f => .dbitF f.oh f.dat⟩,
  ⟨"HTRAIL",     0x2C8#10, 0x3C8#10, fun f => .htrail f.oh f.od f.dat⟩,
  ⟨"ACKS",       0x302#10, 0x3C2#10, fun f => .acks f.oh f.od f.clk⟩,
  ⟨"ACKE",       0x348#10, 0x3C8#10, fun f => .acke f.oh f.od f.dat⟩,
  ⟨"DTRAIL",     0x388#10, 0x3C8#10, fun f => .dtrail f.oh f.od f.dat⟩,
  ⟨"RSVD.PHASE", 0x3C0#10, 0x3C0#10, fun f => .rsvdPhase f.oh f.od f.clk f.dat⟩,
  ⟨"HOLD",       0x200#10, 0x200#10, fun f => .hold f.ph f.oh f.od f.clk f.dat⟩]

/-- Whether a row selects `ts` (R63). -/
def Row.selects (r : Row) (ts : Selector) : Bool :=
  ts &&& r.mask == r.pattern

/-- Why a selector stands for no transition (R64). -/
inductive Reject where
  /-- No state and sample can form the selector (R64). -/
  | impossible
  /-- `PV = 0` with `PH` not `DETECT`: no run from reset forms it (R64). -/
  | unreachable
deriving DecidableEq, Repr

/-- What the decoder answers. -/
inductive DecodeResult where
  | instr  (i : Instr)
  | reject (why : Reject)
deriving DecidableEq, Repr

/-- The first row of the opcode map that selects `ts` gives the transition (R63, R64). Every selector that is neither
impossible nor unreachable is selected by some row. -/
def decode (ts : Selector) : DecodeResult :=
  if (unpackFields ts).impossible then .reject .impossible
  else if (unpackFields ts).unreachable then .reject .unreachable
  else
    match opcodeMap.find? (fun r => r.selects ts) with
    | some r => .instr (r.build (unpackFields ts))
    | none   => .reject .impossible

/-- Fields of a selector with `PV = 1`. -/
def liveFields (ph : Phase) (oh od : EdgeOpt) (clk dat : Edge) : Fields :=
  { pv := true, ph := ph, oh := oh, od := od,
    cr := clk.riseBit, cf := clk.fallBit, dr := dat.riseBit, df := dat.fallBit }

/-- The selector fields a transition stands for: its row's fixed bits (R63, the pattern column) and its own fields. -/
def Instr.toFields : Instr → Fields
  | .init oh od              =>
    { pv := false, ph := .detect, oh := oh, od := od, cr := false, cf := false, dr := false, df := false }
  | .detectH oh od dat       => liveFields .detect oh od .fall dat
  | .detectDR oh od clk      => liveFields .detect oh od clk .rise
  | .detectDF oh od clk      => liveFields .detect oh od clk .fall
  | .hbitR od dat            => liveFields .htodBit .rise od .rise dat
  | .hbitF od dat            => liveFields .htodBit .fall od .fall dat
  | .dbitR oh dat            => liveFields .dtohBit oh .rise .rise dat
  | .dbitF oh dat            => liveFields .dtohBit oh .fall .fall dat
  | .htrail oh od dat        => liveFields .htodTrail oh od .rise dat
  | .acks oh od clk          => liveFields .ackWaitData oh od clk .rise
  | .acke oh od dat          => liveFields .ackWaitClk oh od .rise dat
  | .dtrail oh od dat        => liveFields .dtohTrail oh od .rise dat
  | .rsvdPhase oh od clk dat => liveFields .reserved oh od clk dat
  | .hold ph oh od clk dat   => liveFields ph oh od clk dat

/-- The selector of a transition. -/
def encode (i : Instr) : Selector :=
  packFields i.toFields

/-- The mnemonic of R63. -/
def Instr.mnemonic : Instr → String
  | .init _ _          => "INIT"
  | .detectH _ _ _     => "DETECT.H"
  | .detectDR _ _ _    => "DETECT.DR"
  | .detectDF _ _ _    => "DETECT.DF"
  | .hbitR _ _         => "HBIT.R"
  | .hbitF _ _         => "HBIT.F"
  | .dbitR _ _         => "DBIT.R"
  | .dbitF _ _         => "DBIT.F"
  | .htrail _ _ _      => "HTRAIL"
  | .acks _ _ _        => "ACKS"
  | .acke _ _ _        => "ACKE"
  | .dtrail _ _ _      => "DTRAIL"
  | .rsvdPhase _ _ _ _ => "RSVD.PHASE"
  | .hold _ _ _ _ _    => "HOLD"

/-- The decoder on a word numbered as spec/opcode_table.json numbers it. A selector is one 10-bit number (R62), so there is no
byte order; a word with a bit above bit 9 is no selector (R66, log 19). -/
def decodeTableWord (nbits w : Nat) : Option Instr :=
  if w % 2 ^ nbits < 1024 then
    match decode (BitVec.ofNat 10 (w % 2 ^ nbits)) with
    | .instr i  => some i
    | .reject _ => none
  else none

end Sys2Proof
end

