-- ==== Sys2Proof/Machine/State.lean ====
section
/-! DEFINITION. The machine's state as plain data, its faults and refusals, and the state after reset. -/

namespace Sys2Proof.Machine

/-- What the environment does to the block between two steps (R70): it presents a sample (R71), drives the configuration
inputs (R49), or applies `rst` (R150). -/
inductive Input where
  | sample (smp : Sample)
  | config (htod dtoh : EdgeOpt)
  | reset
deriving DecidableEq, Repr

/-- The elements of R20's table (`phase` to `optDtohEdge`), the input ports of R70 that a step reads (`cfg*`, `smp`), and the
model's own two lists: what the environment has still to present (`input`) and every record emitted so far (`out`). -/
structure State where
  /-- `phase`, R22. -/
  phase       : Phase
  /-- `dir`, R23. -/
  dir         : Direction
  /-- `count`, 4 bits, R24. -/
  count       : Fin 16
  /-- `bits[0..10]`, R25; `none` is an empty slot (R61). -/
  bits        : Vector (Option Slot) 11
  /-- `ack_start`, R26. -/
  ackStart    : Nat
  /-- `prev_clk`, R27. -/
  prevClk     : Level
  /-- `prev_dat`, R27. -/
  prevDat     : Level
  /-- `prev_valid`, R27. -/
  prevValid   : Bool
  /-- `last_idx`, R28. -/
  lastIdx     : Nat
  /-- `opt_htod_edge`, R29. -/
  optHtodEdge : EdgeOpt
  /-- `opt_dtoh_edge`, R29. -/
  optDtohEdge : EdgeOpt
  /-- The input port `cfg_htod_edge`, R70. -/
  cfgHtodEdge : EdgeOpt
  /-- The input port `cfg_dtoh_edge`, R70. -/
  cfgDtohEdge : EdgeOpt
  /-- The input ports `smp_idx`, `smp_clk`, `smp_dat` (R70): the sample being processed, R8's `smp`. -/
  smp         : Sample
  /-- What the environment has still to present, oldest first (log 1). -/
  input       : List Input
  /-- Every record emitted so far, oldest first (R47, R77, log 3). -/
  out         : List Record
deriving DecidableEq, Repr

/-- The model's own faults (R131). Both are safe: the hardware has no fault, and the model stops where the spec gives no
further behaviour. -/
inductive Fault where
  /-- Raised by the step wrapper: a sample's index is not greater than the previous one's (R72). Safe. -/
  | inputOrder
  /-- Raised by the step wrapper and by `RSVD.PHASE`: a state outside the reset invariant (R114). Safe. -/
  | unreachable
deriving DecidableEq, Repr

/-- Why a step is refused. -/
inductive Refusal where
  /-- Raised by `exec` for an instruction without a meaning; no arm raises it here. Safe. -/
  | notModelled (mnemonic : String)
  /-- Raised by the step for a selector that no state and sample can form (R64); never reached (log 18). Safe. -/
  | impossibleSelector
deriving DecidableEq, Repr

/-- The state after reset (R33, R151) with nothing presented and nothing emitted. The configuration is at its defaults, as for
an environment that supplies no choice (R152). `prevClk`, `prevDat`, `lastIdx` and `smp` have no reset value in the spec:
DESIGN CHOICE zero (log 4, log 5). -/
def State.reset : State where
  phase       := .detect
  dir         := .idle
  count       := 0
  bits        := Vector.replicate 11 none
  ackStart    := 0
  prevClk     := false
  prevDat     := false
  prevValid   := false
  lastIdx     := 0
  optHtodEdge := Config.defaultHtodEdge
  optDtohEdge := Config.defaultDtohEdge
  cfgHtodEdge := Config.defaultHtodEdge
  cfgDtohEdge := Config.defaultDtohEdge
  smp         := ⟨0, false, false⟩
  input       := []
  out         := []

end Sys2Proof.Machine
end

