-- ==== Sys2Proof/Machine/Flags.lean ====
section
/-! DEFINITION. The combinational conditions: the edge conditions on the current sample (R73) and the parity validator (R90). -/

namespace Sys2Proof.Machine

/-- `CR` (R73). -/
def clockRises (s : State) : Bool := s.prevValid && !s.prevClk && s.smp.clk

/-- `CF` (R73). -/
def clockFalls (s : State) : Bool := s.prevValid && s.prevClk && !s.smp.clk

/-- `DR` (R73). -/
def dataRises (s : State) : Bool := s.prevValid && !s.prevDat && s.smp.dat

/-- `DF` (R73). -/
def dataFalls (s : State) : Bool := s.prevValid && s.prevDat && !s.smp.dat

/-- The number of 1 bits in a data word (R7). -/
def popcount (w : Byte) : Nat :=
  ((List.range 8).map fun i => (w.getLsbD i).toNat).sum

/-- The parity validator (R90): odd parity over the eight data bits and the parity bit. -/
def parityOk (w : Byte) (p : Level) : Bool :=
  (popcount w + p.toNat) % 2 == 1

end Sys2Proof.Machine
end

