-- ==== Sys2Proof/Machine/Operands.lean ====
section
/-! DEFINITION. What the operations read: slots of the bit buffer (R41), the assembled word (R89), the bit width (R85), and a
level as a payload (R59). -/

namespace Sys2Proof.Machine

/-- Slot `i` of the bit buffer. A read of an empty slot, which no run makes (R41), gives any value (I11, log 7). -/
def slotAt (s : State) (i : Nat) : Slot :=
  (s.bits[i]?.join).getD (Config.emptySlot i s.lastIdx)

/-- `word` (R89): the sum of `bits[i+1].value << i` for `i` in 0..7, so slot 1 is the least significant bit. -/
def assembleWord (s : State) : Byte :=
  BitVec.ofNat 8 ((List.range 8).map fun i => (slotAt s (i + 1)).value.toNat <<< i).sum

/-- `bit_width` (R85). The difference is non-negative in every run (R7); log 9 says what a state outside every run gives. -/
def bitWidth (s : State) : Nat :=
  (slotAt s 2).endIdx - (slotAt s 1).endIdx

/-- A captured level as a record payload (R59). -/
def levelPayload (v : Level) : Byte :=
  (BitVec.ofBool v).setWidth 8

end Sys2Proof.Machine
end

