-- ==== Sys2Proof/Machine/Ops.lean ====
section
/-! DEFINITION. The named operations: writes of single state elements, `Emit`, `Capture`, `Finalize`, the sampling transition
they make up, and raising one of the model's faults. The block takes no exception and returns from none (R130, R137). -/

namespace Sys2Proof.Machine

def setPhase (p : Phase) (s : State) : State := { s with phase := p }

def setDir (d : Direction) (s : State) : State := { s with dir := d }

def setCount (n : Fin 16) (s : State) : State := { s with count := n }

def setAckStart (n : Nat) (s : State) : State := { s with ackStart := n }

/-- Writes slot `i`, which becomes occupied (R41). -/
def putSlot (i : Nat) (x : Slot) (s : State) : State := { s with bits := s.bits.setIfInBounds i (some x) }

/-- Marks every slot empty (R41, R93). -/
def clearSlots (s : State) : State := { s with bits := Vector.replicate 11 none }

/-- `bits[i].end <- n`. -/
def setSlotEnd (i n : Nat) (s : State) : State := putSlot i { slotAt s i with endIdx := n } s

/-- `Emit` (R77) of several records in order. -/
def emitAll (rs : List Record) (s : State) : State := { s with out := s.out ++ rs }

/-- The end fix-up (R84), for an append at slot `n`. -/
def fixPreviousEnd (n idx : Nat) (s : State) : State :=
  if 0 < n then setSlotEnd (n - 1) idx s else s

/-- Stop-end synthesis (R86): the stop bit's end moves on by one bit width. -/
def synthesizeStopEnd (s : State) : State :=
  setSlotEnd 10 ((slotAt s 10).endIdx + bitWidth s) s

/-- The append of `Capture` (R82): the new slot, the end fix-up, and the count. -/
def appendBit (v : Level) (idx : Nat) (s : State) : State :=
  setCount (s.count + 1)
    (fixPreviousEnd s.count.val idx
      (putSlot s.count.val { value := v, startIdx := idx, endIdx := idx } s))

/-- `Capture(v, s)` (R81 to R87). -/
def capture (v : Level) (idx : Nat) (s : State) : CaptureStatus × State :=
  if 11 ≤ s.count then (.needMoreBits, s)
  else if s.count = 0 ∧ v = Config.idleLevel then (.needMoreBits, s)
  else if s.count + 1 = 11 then (.frameComplete, synthesizeStopEnd (appendBit v idx s))
  else (.needMoreBits, appendBit v idx s)

/-- A record over one slot's span that shows its value (R59, R91). -/
def slotRecord (cat : Category) (x : Slot) : Record :=
  { cat := cat, startIdx := x.startIdx, endIdx := x.endIdx, payload := levelPayload x.value }

/-- The `word` record (R91): from slot 1's start to slot 8's end. -/
def wordRecord (s : State) : Record :=
  { cat := .word, startIdx := (slotAt s 1).startIdx, endIdx := (slotAt s 8).endIdx, payload := assembleWord s }

/-- The parity category that R90 selects (R91). -/
def parityCategory (s : State) : Category :=
  if parityOk (assembleWord s) (slotAt s 9).value then .parityOk else .parityErr

/-- The 15 records of a frame, in the order of R91. -/
def frameRecords (s : State) : List Record :=
  ((List.range 11).map fun i => slotRecord .bit (slotAt s i)) ++
    [slotRecord .startBit (slotAt s 0), wordRecord s,
     slotRecord (parityCategory s) (slotAt s 9), slotRecord .stopBit (slotAt s 10)]

/-- `Finalize()` (R88): emits the frame's records and clears the accumulator (R93). -/
def finalize (s : State) : State :=
  clearSlots (setCount 0 (emitAll (frameRecords s) s))

/-- The next phase after a sampling transition that completed no frame (R108). -/
def phaseAfterCapture (stay : Phase) (s : State) : Phase :=
  if s.count = 0 then .detect else stay

/-- A sampling transition (R106, R107): capture the data level; on the 11th bit finalize in the same step and go to `trail`,
otherwise go on as R108 says. -/
def sampleBit (stay trail : Phase) (s : State) : State :=
  match capture s.smp.dat s.smp.idx s with
  | (.frameComplete, t) => setPhase trail (finalize t)
  | (.needMoreBits, t)  => setPhase (phaseAfterCapture stay t) t

/-- The DtoH start condition (R104): the direction, then a capture whose status is not used, then the phase. -/
def startDeviceToHost (s : State) : State :=
  setPhase .dtohBit (capture s.smp.dat s.smp.idx (setDir .deviceToHost s)).2

/-- The end of a post-frame sequence (R111, R112, R115): the direction resets and detection begins. -/
def endPostFrame (s : State) : State :=
  setPhase .detect (setDir .idle s)

/-- `raise Fault(reason)` (R8, R131): no state changes and the machine is final. -/
def raise (f : Fault) : Host.Outcome State Fault Refusal := .fault f

end Sys2Proof.Machine
end

