-- ==== Sys2Proof/Machine/Detect.lean ====
section
/-! DEFINITION. The direction detector: `DETECT.H`, `DETECT.DR`, `DETECT.DF`. -/

namespace Sys2Proof.Machine

/-- `DETECT.H` (R103): HtoD; nothing is captured. -/
def execDetectH (s : State) : Host.Outcome State Fault Refusal :=
  .next (setPhase .htodBit (setDir .hostToDevice s))

/-- `DETECT.DR` (R104): DtoH on a data rising edge. -/
def execDetectDR (s : State) : Host.Outcome State Fault Refusal :=
  .next (startDeviceToHost s)

/-- `DETECT.DF` (R104): DtoH on a data falling edge, which is the start bit. -/
def execDetectDF (s : State) : Host.Outcome State Fault Refusal :=
  .next (startDeviceToHost s)

end Sys2Proof.Machine
end

