-- ==== Sys2Proof/Machine/OtherSelectors.lean ====
section
/-! DEFINITION. The other selectors: `HOLD` and `RSVD.PHASE`. -/

namespace Sys2Proof.Machine

/-- `HOLD` (R113): no action; only the step wrapper's updates happen. -/
def execHold (s : State) : Host.Outcome State Fault Refusal :=
  .next s

/-- `RSVD.PHASE` (R114): `Fault(Unreachable)`, with no state change. -/
def execRsvdPhase (_s : State) : Host.Outcome State Fault Refusal :=
  raise .unreachable

end Sys2Proof.Machine
end

