-- ==== Sys2Proof/Machine/PostFrame.lean ====
section
/-! DEFINITION. The post-frame sequence: `HTRAIL`, `ACKS`, `ACKE`, `DTRAIL`. -/

namespace Sys2Proof.Machine

/-- `HTRAIL` (R109): the trailing sample is consumed and discarded. -/
def execHtrail (s : State) : Host.Outcome State Fault Refusal :=
  .next (setPhase .ackWaitData s)

/-- `ACKS` (R110): the ACK span starts at this sample. -/
def execAcks (s : State) : Host.Outcome State Fault Refusal :=
  .next (setPhase .ackWaitClk (setAckStart s.smp.idx s))

/-- `ACKE` (R111): emits the `ack` record and ends the HtoD post-frame sequence. -/
def execAcke (s : State) : Host.Outcome State Fault Refusal :=
  .next (endPostFrame
    (emitAll [{ cat := .ack, startIdx := s.ackStart, endIdx := s.smp.idx, payload := 0x00#8 }] s))

/-- `DTRAIL` (R112): the trailing sample is consumed and discarded, and the DtoH post-frame sequence ends. -/
def execDtrail (s : State) : Host.Outcome State Fault Refusal :=
  .next (endPostFrame s)

end Sys2Proof.Machine
end

