-- ==== Sys2Proof/Machine/Sampling.lean ====
section
/-! DEFINITION. The sampling transitions: `HBIT.R`, `HBIT.F`, `DBIT.R`, `DBIT.F`. -/

namespace Sys2Proof.Machine

/-- `HBIT.R` (R106). -/
def execHbitR (s : State) : Host.Outcome State Fault Refusal :=
  .next (sampleBit .htodBit .htodTrail s)

/-- `HBIT.F` (R106). -/
def execHbitF (s : State) : Host.Outcome State Fault Refusal :=
  .next (sampleBit .htodBit .htodTrail s)

/-- `DBIT.R` (R107). -/
def execDbitR (s : State) : Host.Outcome State Fault Refusal :=
  .next (sampleBit .dtohBit .dtohTrail s)

/-- `DBIT.F` (R107). -/
def execDbitF (s : State) : Host.Outcome State Fault Refusal :=
  .next (sampleBit .dtohBit .dtohTrail s)

end Sys2Proof.Machine
end

