-- ==== Sys2Proof/Machine/Startup.lean ====
section
/-! DEFINITION. `INIT`, the first sample of a run. -/

namespace Sys2Proof.Machine

/-- `INIT` (R102): no action; the step wrapper loads the previous levels. -/
def execInit (s : State) : Host.Outcome State Fault Refusal :=
  .next s

end Sys2Proof.Machine
end

