-- ==== Sys2Proof/Machine/Dispatch.lean ====
section
/-! DEFINITION. One arm per row of spec/opcode_table.json. -/

namespace Sys2Proof.Machine

def exec (i : Instr) (s : State) : Host.Outcome State Fault Refusal :=
  match i with
  | .init _ _ => Sys2Proof.Machine.execInit s
  | .detectH _ _ _ => Sys2Proof.Machine.execDetectH s
  | .detectDR _ _ _ => Sys2Proof.Machine.execDetectDR s
  | .detectDF _ _ _ => Sys2Proof.Machine.execDetectDF s
  | .hbitR _ _ => Sys2Proof.Machine.execHbitR s
  | .hbitF _ _ => Sys2Proof.Machine.execHbitF s
  | .dbitR _ _ => Sys2Proof.Machine.execDbitR s
  | .dbitF _ _ => Sys2Proof.Machine.execDbitF s
  | .htrail _ _ _ => Sys2Proof.Machine.execHtrail s
  | .acks _ _ _ => Sys2Proof.Machine.execAcks s
  | .acke _ _ _ => Sys2Proof.Machine.execAcke s
  | .dtrail _ _ _ => Sys2Proof.Machine.execDtrail s
  | .rsvdPhase _ _ _ _ => Sys2Proof.Machine.execRsvdPhase s
  | .hold _ _ _ _ _ => Sys2Proof.Machine.execHold s

end Sys2Proof.Machine
end

