-- ==== Sys2Proof/Machine/Interface.lean ====
section
/-! DEFINITION. The step wrapper's parts (R101): presenting a sample, its checks, the selector, the update of the previous
levels; the effects of the other inputs; and placing a selector for the next step. -/

namespace Sys2Proof.Machine

/-- The head of the stream is at the ports, and the stream has moved on (R46, R71). -/
def presentSample (smp : Sample) (rest : List Input) (s : State) : State :=
  { s with smp := smp, input := rest }

/-- R72: whether the current sample's index fails to be greater than the previous one's. -/
def outOfOrder (s : State) : Bool :=
  s.prevValid && decide (s.smp.idx ≤ s.lastIdx)

/-- R114: the states no run from reset reaches and that the model refuses. -/
def outsideReset (s : State) : Bool :=
  s.phase == .reserved || s.dir == .reserved || (!s.prevValid && s.phase != .detect)

/-- The wrapper's checks in their order (R101, R136): `Fault(InputOrder)` first, then `Fault(Unreachable)`. -/
def checkSample (s : State) : Option Fault :=
  if outOfOrder s then some .inputOrder
  else if outsideReset s then some .unreachable
  else none

/-- The fields of the selector the block forms (R62). -/
def selectorFields (s : State) : Fields :=
  { pv := s.prevValid, ph := s.phase, oh := s.optHtodEdge, od := s.optDtohEdge,
    cr := clockRises s, cf := clockFalls s, dr := dataRises s, df := dataFalls s }

/-- `TS` (R62). -/
def selector (s : State) : Selector :=
  packFields (selectorFields s)

/-- The wrapper's last line (R101): the previous-level registers and `last_idx` take the current sample. -/
def loadPrevious (s : State) : State :=
  { s with prevClk := s.smp.clk, prevDat := s.smp.dat, prevValid := true, lastIdx := s.smp.idx }

/-- The wrapper after the transition (R101): a transition that gave a next state is followed by `loadPrevious`. -/
def finishStep (o : Host.Outcome State Fault Refusal) : Host.Outcome State Fault Refusal :=
  match o with
  | .next t    => .next (loadPrevious t)
  | .fault f   => .fault f
  | .refused r => .refused r

/-- A selector that stands for no transition (R64). -/
def rejectSelector (why : Reject) : Host.Outcome State Fault Refusal :=
  match why with
  | .unreachable => raise .unreachable
  | .impossible  => .refused .impossibleSelector

/-- No further sample is presented (R79): no flush, no record, the state is left as it was (log 2). -/
def endOfStream (s : State) : State := s

/-- The environment drives the configuration inputs; the block's options keep their values until a reset (R49, R152). -/
def driveConfig (htod dtoh : EdgeOpt) (rest : List Input) (s : State) : State :=
  { s with cfgHtodEdge := htod, cfgDtohEdge := dtoh, input := rest }

/-- Reset (R150, R151): every element of the block takes its reset value and the options are latched from the configuration
inputs (R152). A partly captured frame or a pending ACK is dropped without a record; records already emitted stay (R77). -/
def applyReset (rest : List Input) (s : State) : State :=
  { State.reset with
    optHtodEdge := s.cfgHtodEdge, optDtohEdge := s.cfgDtohEdge,
    cfgHtodEdge := s.cfgHtodEdge, cfgDtohEdge := s.cfgDtohEdge,
    smp := s.smp, input := rest, out := s.out }

/-- The previous level that gives a line the wanted edge; a line without an edge keeps its level. -/
def levelBefore (e : Edge) (old : Level) : Level :=
  match e with
  | .none => old
  | .rise => false
  | .fall => true

/-- The level that gives a line the wanted edge after `levelBefore`. -/
def levelAfter (e : Edge) (old : Level) : Level :=
  match e with
  | .none => old
  | .rise => true
  | .fall => false

/-- A direction that the wrapper's check accepts (R114): the reserved code gives way to `Idle`, any other stays. -/
def acceptedDir (d : Direction) : Direction :=
  match d with
  | .reserved     => .idle
  | .idle         => .idle
  | .hostToDevice => .hostToDevice
  | .deviceToHost => .deviceToHost

/-- The state whose very next step forms the selector with these fields: the state part of the selector is set, and a sample
that makes its edges is put first in the stream, with an index after the last one (log 16). -/
def placeFields (f : Fields) (s : State) : State :=
  { s with
    phase := f.ph, prevValid := f.pv, optHtodEdge := f.oh, optDtohEdge := f.od,
    dir := acceptedDir s.dir,
    prevClk := levelBefore f.clk s.prevClk, prevDat := levelBefore f.dat s.prevDat,
    input := .sample { idx := s.lastIdx + 1, clk := levelAfter f.clk s.prevClk, dat := levelAfter f.dat s.prevDat } :: s.input }

/-- `placeFields` for a word numbered as spec/opcode_table.json numbers it. -/
def placeWord (nbits w : Nat) (s : State) : State :=
  placeFields (unpackFields (BitVec.ofNat 10 (w % 2 ^ nbits))) s

end Sys2Proof.Machine
end

