-- ==== Sys2Proof/Machine/Labels.lean ====
section
/-! DEFINITION. Text: the labels of a record (R60, R94) and the notation of samples, transitions and records (R9, R65). -/

namespace Sys2Proof.Machine

/-- One lowercase hexadecimal digit (R94). -/
def hexDigit (n : Nat) : String :=
  match n with
  | 0 => "0" | 1 => "1" | 2 => "2" | 3 => "3" | 4 => "4" | 5 => "5" | 6 => "6" | 7 => "7"
  | 8 => "8" | 9 => "9" | 10 => "a" | 11 => "b" | 12 => "c" | 13 => "d" | 14 => "e" | _ => "f"

/-- A byte as exactly two hexadecimal digits (R94). -/
def hexByte (w : Byte) : String :=
  hexDigit (w.toNat / 16) ++ hexDigit (w.toNat % 16)

/-- The labels of a `word` record, from most to least verbose (R94). -/
def wordLabels (w : Byte) : List String :=
  ["Data: " ++ hexByte w, "D: " ++ hexByte w, hexByte w]

/-- `labels[]` (R60): fixed for `word`, the open parameter `LABEL_TEXT` for every other category. -/
def recordLabels (r : Record) : List String :=
  match r.cat with
  | .word      => wordLabels r.payload
  | .bit       => Config.labelText .bit r.payload
  | .startBit  => Config.labelText .startBit r.payload
  | .stopBit   => Config.labelText .stopBit r.payload
  | .parityOk  => Config.labelText .parityOk r.payload
  | .parityErr => Config.labelText .parityErr r.payload
  | .dataBit   => Config.labelText .dataBit r.payload
  | .ack       => Config.labelText .ack r.payload

/-- The category names of R58. -/
def categoryName : Category → String
  | .bit       => "bit"
  | .startBit  => "start-bit"
  | .stopBit   => "stop-bit"
  | .parityOk  => "parity-ok"
  | .parityErr => "parity-err"
  | .dataBit   => "data-bit"
  | .word      => "word"
  | .ack       => "ack"

def levelText (v : Level) : String := if v then "1" else "0"

/-- A natural number in decimal digits, least significant digit last; `fuel` bounds the digits. -/
def decimalText (fuel n : Nat) : String :=
  match fuel with
  | 0     => ""
  | k + 1 => (if n < 10 then "" else decimalText k (n / 10)) ++ hexDigit (n % 10)

/-- A sample index in decimal. -/
def indexText (n : Nat) : String := decimalText (n + 1) n

/-- A sample as `idx:CD` (R9). -/
def sampleText (x : Sample) : String :=
  indexText x.idx ++ ":" ++ levelText x.clk ++ levelText x.dat

/-- A payload: hexadecimal for `word`, `0` or `1` otherwise (R65). -/
def payloadText (cat : Category) (p : Byte) : String :=
  if cat = .word then hexByte p else levelText (p.getLsbD 0)

/-- A record as `cat[start,end)=payload` (R9, R65). -/
def recordText (r : Record) : String :=
  categoryName r.cat ++ "[" ++ indexText r.startIdx ++ "," ++ indexText r.endIdx ++ ")=" ++ payloadText r.cat r.payload

/-- A transition by its mnemonic, followed by its operand sample (R65). -/
def transitionText (i : Instr) (x : Sample) : String :=
  i.mnemonic ++ " " ++ sampleText x

end Sys2Proof.Machine
end

