-- ==== Sys2Proof/Machine/Step.lean ====
section
/-! DEFINITION. One step of the machine: it takes the next thing the environment presents. -/

namespace Sys2Proof.Machine

/-- `Step(S, smp)` with the sample at the ports (R101). -/
def sampleStep (s : State) : Host.Outcome State Fault Refusal :=
  match checkSample s with
  | some f => raise f
  | none =>
    match decode (selector s) with
    | .instr i    => finishStep (exec i s)
    | .reject why => rejectSelector why

/-- A step takes the next input: a sample is processed as R101 says, the configuration inputs change without effect on the
run (R49), a reset begins a new run (R150), and with no input left nothing changes (R79). -/
def step (s : State) : Host.Outcome State Fault Refusal :=
  match s.input with
  | [] => .next (endOfStream s)
  | .sample smp :: rest => sampleStep (presentSample smp rest s)
  | .config htod dtoh :: rest => .next (driveConfig htod dtoh rest s)
  | .reset :: rest => .next (applyReset rest s)

/-- The state whose very next step forms the selector `w` and performs the transition it selects (log 16). -/
def State.withFetchWord (s : State) (nbits w : Nat) : State :=
  placeWord nbits w s

end Sys2Proof.Machine
end

