-- ==== Sys2Proof/Safety.lean ====
section
/-! DEFINITION. The terms that claims about the machine use: when a sample is accepted, what a sample step leaves behind, the
invariants of R32, the environment's precondition R72 over a whole stream, and the frame a completed buffer stands for. -/

namespace Sys2Proof.Machine

/-- The wrapper's checks pass (R101): the index is in order (R72) and the state is none of those R114 names. -/
structure Accepts (s : State) (smp : Sample) : Prop where
  inOrder     : s.prevValid = true → s.lastIdx < smp.idx
  phaseLegal  : s.phase ≠ .reserved
  dirLegal    : s.dir ≠ .reserved
  firstSample : s.prevValid = false → s.phase = .detect

/-- What the wrapper does around the transition (R101): the sample has been taken from the stream, and the previous-level
registers hold it. -/
def afterSample (smp : Sample) (rest : List Input) (t : State) : State :=
  { t with
    smp := smp, input := rest,
    prevClk := smp.clk, prevDat := smp.dat, prevValid := true, lastIdx := smp.idx }

/-- The edge of a line whose previous level is `before` and whose current level is `now`. -/
def edgeBetween (before now : Level) : Edge :=
  if before = now then .none else if now then .rise else .fall

/-- Slots `0 .. n-1` are occupied. -/
def Occupied (s : State) (n : Nat) : Prop :=
  ∀ i : Fin 11, i.val < n → s.bits[i].isSome = true

/-- The buffer after a bit has been appended at slot `n` at sample `idx` (R82, R84): slot `n` holds the bit, the slot before
it, if there is one, ends at `idx`, every other slot is as before. -/
def appendedBits (bits : Vector (Option Slot) 11) (n : Nat) (v : Level) (idx : Nat) : Vector (Option Slot) 11 :=
  Vector.ofFn fun i : Fin 11 =>
    if i.val = n then some { value := v, startIdx := idx, endIdx := idx }
    else if i.val + 1 = n then bits[i].map (fun b => { b with endIdx := idx })
    else bits[i]

/-- The buffer with no slot occupied. -/
def emptyBits : Vector (Option Slot) 11 := Vector.replicate 11 none

/-- A record over the span of `b`, showing its value (R59). -/
def showBit (cat : Category) (b : Slot) : Record :=
  { cat := cat, startIdx := b.startIdx, endIdx := b.endIdx, payload := if b.value then 1#8 else 0#8 }

/-- Whether the nine bits of data and parity hold an odd number of 1s (R90). -/
def oddOnes (b : Fin 11 → Slot) : Bool :=
  (b 1).value ^^ (b 2).value ^^ (b 3).value ^^ (b 4).value ^^ (b 5).value ^^ (b 6).value ^^ (b 7).value ^^
    (b 8).value ^^ (b 9).value

/-- The data word of eleven captured bits, highest bit first: slot 8 is the most significant bit, slot 1 the least (R42). -/
def wordOfBits (b : Fin 11 → Slot) : Byte :=
  BitVec.ofBool (b 8).value ++ BitVec.ofBool (b 7).value ++ BitVec.ofBool (b 6).value ++ BitVec.ofBool (b 5).value ++
    BitVec.ofBool (b 4).value ++ BitVec.ofBool (b 3).value ++ BitVec.ofBool (b 2).value ++ BitVec.ofBool (b 1).value

/-- The 15 records of a frame with these eleven bits, written out in the order of R91. -/
def recordsOfBits (b : Fin 11 → Slot) : List Record :=
  [showBit .bit (b 0), showBit .bit (b 1), showBit .bit (b 2), showBit .bit (b 3), showBit .bit (b 4), showBit .bit (b 5),
   showBit .bit (b 6), showBit .bit (b 7), showBit .bit (b 8), showBit .bit (b 9), showBit .bit (b 10),
   showBit .startBit (b 0),
   { cat := .word, startIdx := (b 1).startIdx, endIdx := (b 8).endIdx, payload := wordOfBits b },
   showBit (if oddOnes b then .parityOk else .parityErr) (b 9),
   showBit .stopBit (b 10)]

/-- The eleven bits of a frame whose first ten bits are `b` and whose stop bit is captured at `idx` with value `v`: slot 9 ends
at `idx` (R84), and the stop bit lasts one bit width (R85, R86). -/
def completedBits (b : Fin 10 → Slot) (v : Level) (idx : Nat) : Fin 11 → Slot :=
  fun i =>
    if h : i.val < 9 then b ⟨i.val, by omega⟩
    else if i.val = 9 then { b 9 with endIdx := idx }
    else { value := v, startIdx := idx, endIdx := idx + ((b 2).endIdx - (b 1).endIdx) }

/-- The nine invariants of R32, in its order. -/
structure ResetInvariant (s : State) : Prop where
  /-- 1. -/
  countAtMostTen : s.count ≤ 10
  /-- 2. -/
  endsMeetStarts : ∀ i : Fin 11, i.val + 1 < s.count.val → (slotAt s i.val).endIdx = (slotAt s (i.val + 1)).startIdx
  /-- 3. -/
  newestIsPoint : 0 < s.count → (slotAt s (s.count.val - 1)).endIdx = (slotAt s (s.count.val - 1)).startIdx
  /-- 4. -/
  startBitIsZero : 0 < s.count → (slotAt s 0).value = false
  /-- 5. -/
  startsIncrease : ∀ i : Fin 11, i.val + 1 < s.count.val → (slotAt s i.val).startIdx < (slotAt s (i.val + 1)).startIdx
  /-- 6, first sentence. -/
  capturingPhase : 0 < s.count → s.phase = .htodBit ∨ s.phase = .dtohBit
  /-- 6, second sentence. -/
  htodDirection : s.phase = .htodBit → s.dir = .hostToDevice
  /-- 6, second sentence. -/
  dtohDirection : s.phase = .dtohBit → s.dir = .deviceToHost
  /-- 7, for the HtoD phases. -/
  htodPostFrame : s.phase = .htodTrail ∨ s.phase = .ackWaitData ∨ s.phase = .ackWaitClk →
    s.count = 0 ∧ s.dir = .hostToDevice
  /-- 7, for the DtoH phase. -/
  dtohPostFrame : s.phase = .dtohTrail → s.count = 0 ∧ s.dir = .deviceToHost
  /-- 8. -/
  phaseLegal : s.phase ≠ .reserved
  /-- 8. -/
  dirLegal : s.dir ≠ .reserved
  /-- 9. -/
  beforeFirstSample : s.prevValid = false → s.phase = .detect ∧ s.count = 0

/-- R32 with what makes it inductive (log 24): the occupancy of R61, and that captured bits and a started ACK are no later
than the last sample (R72). -/
structure Invariant (s : State) : Prop where
  r32 : ResetInvariant s
  occupancy : ∀ i : Fin 11, s.bits[i].isSome = true ↔ i.val < s.count.val
  capturedBefore : 0 < s.count → (slotAt s (s.count.val - 1)).startIdx ≤ s.lastIdx
  ackBefore : s.phase = .ackWaitClk → s.ackStart ≤ s.lastIdx

/-- Within one run, every record emitted so far starts no later than the last sample, before the frame in progress, and before
a started ACK (R47). -/
structure OutputBehind (s : State) : Prop where
  seen : s.out ≠ [] → s.prevValid = true
  lastSample : ∀ r ∈ s.out, r.startIdx ≤ s.lastIdx
  frame : 0 < s.count → ∀ r ∈ s.out, r.startIdx < (slotAt s 0).startIdx
  ack : s.phase = .ackWaitClk → ∀ r ∈ s.out, r.startIdx < s.ackStart

/-- The environment keeps R72 over a whole stream: in each run, every sample's index is greater than the one before it. The
first argument is the index of the last sample of the current run, if it has had one. -/
def StreamInOrder : Option Nat → List Input → Prop
  | _, [] => True
  | none, .sample x :: rest => StreamInOrder (some x.idx) rest
  | some k, .sample x :: rest => k < x.idx ∧ StreamInOrder (some x.idx) rest
  | last, .config _ _ :: rest => StreamInOrder last rest
  | _, .reset :: rest => StreamInOrder none rest

/-- The index of the last sample of the current run, if it has had one. -/
def lastSample (s : State) : Option Nat :=
  if s.prevValid then some s.lastIdx else none

/-- Two outcomes that differ at most in the direction register. -/
def SameButDir : Host.Outcome State Fault Refusal → Host.Outcome State Fault Refusal → Prop
  | .next t, .next u       => { t with dir := .idle } = { u with dir := .idle }
  | .fault f, .fault g     => f = g
  | .refused f, .refused g => f = g
  | _, _                   => False

/-- The transition that a state with `prev_valid = 1` performs on the sample at its ports, said by the wait conditions of R55
and the priority of R105 instead of the masks of R63. -/
def awaitedTransition (s : State) : Instr :=
  let clk := edgeBetween s.prevClk s.smp.clk
  let dat := edgeBetween s.prevDat s.smp.dat
  let oh := s.optHtodEdge
  let od := s.optDtohEdge
  let hold := Instr.hold s.phase oh od clk dat
  match s.phase with
  | .detect =>
    if clk = .fall then .detectH oh od dat
    else if dat = .rise then .detectDR oh od clk
    else if dat = .fall then .detectDF oh od clk
    else hold
  | .htodBit =>
    if oh = .rise ∧ clk = .rise then .hbitR od dat
    else if oh = .fall ∧ clk = .fall then .hbitF od dat
    else hold
  | .dtohBit =>
    if od = .rise ∧ clk = .rise then .dbitR oh dat
    else if od = .fall ∧ clk = .fall then .dbitF oh dat
    else hold
  | .htodTrail   => if clk = .rise then .htrail oh od dat else hold
  | .ackWaitData => if dat = .rise then .acks oh od clk else hold
  | .ackWaitClk  => if clk = .rise then .acke oh od dat else hold
  | .dtohTrail   => if clk = .rise then .dtrail oh od dat else hold
  | .reserved    => .rsvdPhase oh od clk dat

end Sys2Proof.Machine
end

