-- ==== Sys2Proof/Certificates/Slice0/Obligations.lean ====
section
/-! DEFINITION. The statements for the provers. -/

open Sys2Proof Sys2Proof.Machine

/-! ### Encodings -/

/-- Selectors written out bit by bit as PV PH OH OD CR CF DR DF (R62) decode to the transitions that 95_test_vectors.md names
for them. -/
def Obligations.SpecSelectorsDecode : Prop :=
  decode 0b0_000_0_1_0_0_0_0#10 = .instr (.init .rise .fall) ∧
  decode 0b1_000_0_1_0_1_0_1#10 = .instr (.detectH .rise .fall .fall) ∧
  decode 0b1_000_0_1_1_0_1_0#10 = .instr (.detectDR .rise .fall .rise) ∧
  decode 0b1_000_0_1_1_0_0_1#10 = .instr (.detectDF .rise .fall .rise) ∧
  decode 0b1_001_0_1_1_0_0_0#10 = .instr (.hbitR .fall .none) ∧
  decode 0b1_001_1_1_0_1_0_1#10 = .instr (.hbitF .fall .fall) ∧
  decode 0b1_010_0_0_1_0_0_0#10 = .instr (.dbitR .rise .none) ∧
  decode 0b1_010_0_1_0_1_0_0#10 = .instr (.dbitF .rise .none) ∧
  decode 0b1_011_0_1_1_0_1_0#10 = .instr (.htrail .rise .fall .rise) ∧
  decode 0b1_100_0_1_1_0_1_0#10 = .instr (.acks .rise .fall .rise) ∧
  decode 0b1_101_0_1_1_0_0_0#10 = .instr (.acke .rise .fall .none) ∧
  decode 0b1_110_0_0_1_0_0_0#10 = .instr (.dtrail .rise .rise .none) ∧
  decode 0b1_111_0_0_0_0_0_0#10 = .instr (.rsvdPhase .rise .rise .none .none) ∧
  decode 0b1_010_0_1_1_0_1_0#10 = .instr (.hold .dtohBit .rise .fall .rise .rise) ∧
  decode 0b1_001_0_1_1_1_0_0#10 = .reject .impossible ∧
  decode 0b0_001_0_0_0_0_0_0#10 = .reject .unreachable

/-- R55, R56, R57, R58: the codes of phases, directions, options and categories are as tabulated, and reading a code gives back
the name. -/
def Obligations.CodeTables : Prop :=
  [Phase.detect, .htodBit, .dtohBit, .htodTrail, .ackWaitData, .ackWaitClk, .dtohTrail, .reserved].map (·.code.toNat)
      = [0, 1, 2, 3, 4, 5, 6, 7] ∧
  [Direction.idle, .hostToDevice, .deviceToHost, .reserved].map (·.code.toNat) = [0, 1, 2, 3] ∧
  [EdgeOpt.rise, .fall].map (·.code.toNat) = [0, 1] ∧
  [Category.bit, .startBit, .stopBit, .parityOk, .parityErr, .dataBit, .word, .ack].map (·.code.toNat)
      = [0, 1, 2, 3, 4, 5, 6, 7] ∧
  (∀ p : Phase, Phase.ofCode p.code = p) ∧ (∀ d : Direction, Direction.ofCode d.code = d) ∧
  (∀ e : EdgeOpt, EdgeOpt.ofCode e.code = e) ∧ (∀ c : Category, Category.ofCode c.code = c) ∧
  (∀ h d : EdgeOpt, configWord h d = d.code ++ h.code) ∧
  configWord State.reset.optHtodEdge State.reset.optDtohEdge = 0b10#2

/-- No bit of a selector is dropped: every well-formed transition is what its own selector decodes to. -/
def Obligations.DecodeOfEncode : Prop :=
  ∀ i : Instr, i.wellFormed = true → decode (encode i) = .instr i

/-- A selector is the encoding of the one transition it decodes to, and that transition is well formed. -/
def Obligations.EncodeOfDecode : Prop :=
  ∀ (ts : Selector) (i : Instr), decode ts = .instr i → i.wellFormed = true ∧ encode i = ts

/-- R64's classes: a selector is rejected as impossible exactly when both edge bits of a line are set or `PV = 0` with an edge
bit set, as unreachable exactly when it is possible and has `PV = 0` and `PH` not 0, and `RSVD.PHASE` is the possible selectors
with `PV = 1` and `PH = 7`; every other selector is a transition. -/
def Obligations.SelectorClasses : Prop :=
  ∀ ts : Selector,
    let impossible := (ts.getLsbD 3 = true ∧ ts.getLsbD 2 = true) ∨ (ts.getLsbD 1 = true ∧ ts.getLsbD 0 = true) ∨
      (ts.getLsbD 9 = false ∧ ts.extractLsb' 0 4 ≠ 0#4)
    (decode ts = .reject .impossible ↔ impossible) ∧
    (decode ts = .reject .unreachable ↔ ¬ impossible ∧ ts.getLsbD 9 = false ∧ ts.extractLsb' 6 3 ≠ 0#3) ∧
    ((∃ oh od clk dat, decode ts = .instr (.rsvdPhase oh od clk dat)) ↔
      ¬ impossible ∧ ts.getLsbD 9 = true ∧ ts.extractLsb' 6 3 = 7#3) ∧
    ((∃ i, decode ts = .instr i) ↔
      ¬ impossible ∧ (ts.getLsbD 9 = true ∨ ts.extractLsb' 6 3 = 0#3))

/-- R62 and R73: which state element, option and edge condition each bit of the selector is, the edge conditions being level
changes from the previous sample to the current one; with `PV = 0` the four edge bits are 0. -/
def Obligations.SelectorLayout : Prop :=
  ∀ s : State,
    (selector s).getLsbD 9 = s.prevValid ∧
    (selector s).extractLsb' 6 3 = s.phase.code ∧
    (selector s).extractLsb' 5 1 = s.optHtodEdge.code ∧
    (selector s).extractLsb' 4 1 = s.optDtohEdge.code ∧
    ((selector s).getLsbD 3 = true ↔ s.prevValid = true ∧ s.prevClk = false ∧ s.smp.clk = true) ∧
    ((selector s).getLsbD 2 = true ↔ s.prevValid = true ∧ s.prevClk = true ∧ s.smp.clk = false) ∧
    ((selector s).getLsbD 1 = true ↔ s.prevValid = true ∧ s.prevDat = false ∧ s.smp.dat = true) ∧
    ((selector s).getLsbD 0 = true ↔ s.prevValid = true ∧ s.prevDat = true ∧ s.smp.dat = false) ∧
    (s.prevValid = false → (selector s).extractLsb' 0 4 = 0#4)

/-- The masks of the opcode map select what the wait conditions say: with `PV = 1` the awaited transition, with `PV = 0` in
`DETECT` the transition `INIT`. The priority in `DETECT` is the spec's decisions D6 and D7 (log 11). -/
def Obligations.SelectionFollowsWaitConditions : Prop :=
  ∀ s : State,
    (s.prevValid = true → decode (selector s) = .instr (awaitedTransition s)) ∧
    (s.prevValid = false → s.phase = .detect → decode (selector s) = .instr (.init s.optHtodEdge s.optDtohEdge))

/-! ### The step -/

/-- A step on an accepted sample runs the transition its selector decodes to: the selector decodes, `exec` of it answers a next
state, and the step is that state with the sample taken and the previous-level registers loaded. -/
def Obligations.StepRunsDecodedTransition : Prop :=
  ∀ (s : State) (x : Sample) (rest : List Input), s.input = .sample x :: rest → Accepts s x →
    let p := { s with smp := x, input := rest }
    ∃ i t, decode (selector p) = .instr i ∧ i.wellFormed = true ∧ exec i p = .next t ∧
      step s = .next (afterSample x rest t)

/-- R72: a sample whose index is not greater than the previous one's, and only such a sample, raises `Fault(InputOrder)`, in
every phase and direction; the size of the gap between two indices has no part in the selector. -/
def Obligations.InputOrderFault : Prop :=
  (∀ (s : State) (x : Sample) (rest : List Input), s.input = .sample x :: rest →
    (step s = .fault .inputOrder ↔ s.prevValid = true ∧ x.idx ≤ s.lastIdx)) ∧
  (∀ (s : State) (j k : Nat), selector { s with lastIdx := j, smp := { s.smp with idx := k } } = selector s)

/-- R114: a step on a sample in order raises `Fault(Unreachable)` exactly in the three kinds of state named, and `RSVD.PHASE`
raises it in every state. -/
def Obligations.UnreachableFault : Prop :=
  (∀ (s : State) (x : Sample) (rest : List Input), s.input = .sample x :: rest →
    (s.prevValid = true → s.lastIdx < x.idx) →
    (step s = .fault .unreachable ↔
      s.phase = .reserved ∨ s.dir = .reserved ∨ (s.prevValid = false ∧ s.phase ≠ .detect))) ∧
  (∀ (oh od : EdgeOpt) (clk dat : Edge) (s : State), exec (.rsvdPhase oh od clk dat) s = .fault .unreachable)

/-- R102: the first sample of a run only loads the previous-level registers, whatever its levels (no edge on it: the
spec's decision D3, log 11). -/
def Obligations.FirstSampleLoadsLevels : Prop :=
  ∀ (s : State) (x : Sample) (rest : List Input), s.input = .sample x :: rest → Accepts s x → s.prevValid = false →
    step s = .next (afterSample x rest s)

/-- R113: a sample that fires no condition of the current phase changes only the previous-level registers and `last_idx`. -/
def Obligations.HoldStepLoadsLevels : Prop :=
  ∀ (s : State) (x : Sample) (rest : List Input), s.input = .sample x :: rest → Accepts s x → s.prevValid = true →
    s.phase.fires s.optHtodEdge s.optDtohEdge (edgeBetween s.prevClk x.clk) (edgeBetween s.prevDat x.dat) = false →
    step s = .next (afterSample x rest s)

/-- R105: in `DETECT` a clock falling edge is taken as the HtoD start whatever the data line does; a data edge on a sample
without a clock falling edge is taken as the DtoH start even when the clock rises. In a state of R32 (`count = 0`) the DtoH
start captures a 0 as the start bit and discards a 1. The two priorities are the spec's decisions D6 and D7 (log 11). -/
def Obligations.DetectionPriority : Prop :=
  ∀ (s : State) (x : Sample) (rest : List Input), s.input = .sample x :: rest → Accepts s x → s.prevValid = true →
    s.phase = .detect → s.count = 0 →
    (s.prevClk = true → x.clk = false →
      step s = .next (afterSample x rest { s with dir := .hostToDevice, phase := .htodBit })) ∧
    (¬ (s.prevClk = true ∧ x.clk = false) → s.prevDat = false → x.dat = true →
      step s = .next (afterSample x rest { s with dir := .deviceToHost, phase := .dtohBit })) ∧
    (¬ (s.prevClk = true ∧ x.clk = false) → s.prevDat = true → x.dat = false →
      step s = .next (afterSample x rest
        { s with
          dir := .deviceToHost, phase := .dtohBit, count := 1,
          bits := appendedBits s.bits 0 false x.idx }))

/-- R161, R83, R108: with nothing captured, a sampling edge that samples data 1 leaves the accumulator and the output alone and
returns the block to `DETECT`, and one that samples a 0 starts the frame with it and stays; in both directions and for both
values of the option. The direction is left as it is (R118). -/
def Obligations.FirstSamplingEdge : Prop :=
  ∀ (s : State) (x : Sample) (rest : List Input), s.input = .sample x :: rest → Accepts s x → s.prevValid = true →
    s.count = 0 →
    (s.phase = .htodBit ∧ edgeBetween s.prevClk x.clk = s.optHtodEdge.edge ∨
      s.phase = .dtohBit ∧ edgeBetween s.prevClk x.clk = s.optDtohEdge.edge) →
    (x.dat = true → step s = .next (afterSample x rest { s with phase := .detect })) ∧
    (x.dat = false → step s = .next (afterSample x rest
      { s with count := 1, bits := appendedBits s.bits 0 false x.idx }))

/-- R109: in `HTOD_TRAIL` a clock rising edge moves to `ACK_WAIT_DATA` and captures nothing, whatever the data line does. -/
def Obligations.HtodTrailStep : Prop :=
  ∀ (s : State) (x : Sample) (rest : List Input), s.input = .sample x :: rest → Accepts s x → s.prevValid = true →
    s.phase = .htodTrail → s.prevClk = false → x.clk = true →
    step s = .next (afterSample x rest { s with phase := .ackWaitData })

/-- R110: in `ACK_WAIT_DATA` a data rising edge records `ack_start` and moves to `ACK_WAIT_CLK`, whatever the clock does. -/
def Obligations.AckStartStep : Prop :=
  ∀ (s : State) (x : Sample) (rest : List Input), s.input = .sample x :: rest → Accepts s x → s.prevValid = true →
    s.phase = .ackWaitData → s.prevDat = false → x.dat = true →
    step s = .next (afterSample x rest { s with ackStart := x.idx, phase := .ackWaitClk })

/-- R111: in `ACK_WAIT_CLK` a clock rising edge emits `ack[ack_start, idx)` with payload 0, and resets direction and phase; in
every state of the invariant the span is not empty. -/
def Obligations.AckEndStep : Prop :=
  ∀ (s : State) (x : Sample) (rest : List Input), s.input = .sample x :: rest → Accepts s x → s.prevValid = true →
    s.phase = .ackWaitClk → s.prevClk = false → x.clk = true →
    step s = .next (afterSample x rest
      { s with
        out := s.out ++ [{ cat := .ack, startIdx := s.ackStart, endIdx := x.idx, payload := 0x00#8 }],
        dir := .idle, phase := .detect }) ∧
    (Invariant s → s.ackStart < x.idx)

/-- R112: in `DTOH_TRAIL` a clock rising edge, whatever `opt_dtoh_edge` is, resets direction and phase and emits nothing. -/
def Obligations.DtohTrailStep : Prop :=
  ∀ (s : State) (x : Sample) (rest : List Input), s.input = .sample x :: rest → Accepts s x → s.prevValid = true →
    s.phase = .dtohTrail → s.prevClk = false → x.clk = true →
    step s = .next (afterSample x rest { s with dir := .idle, phase := .detect })

/-! ### The transitions -/

/-- `INIT` and `HOLD` complete in every state and change nothing themselves. -/
def Obligations.InitAndHoldComplete : Prop :=
  ∀ s : State,
    (∀ oh od, exec (.init oh od) s = .next s) ∧
    (∀ ph oh od clk dat, exec (.hold ph oh od clk dat) s = .next s)

/-- `DETECT.H` completes in every state: direction and phase, and nothing else. -/
def Obligations.DetectHCompletes : Prop :=
  ∀ (s : State) (oh od : EdgeOpt) (dat : Edge),
    exec (.detectH oh od dat) s = .next { s with dir := .hostToDevice, phase := .htodBit }

/-- `DETECT.DR` and `DETECT.DF` complete in every state with `count = 0`, for both data levels: a 1 is discarded, a 0 becomes
slot 0; the status is not used. -/
def Obligations.DtohDetectionCompletes : Prop :=
  ∀ (s : State) (oh od : EdgeOpt) (clk : Edge), s.count = 0 →
    let t := if s.smp.dat then { s with dir := .deviceToHost, phase := .dtohBit }
      else { s with
        dir := .deviceToHost, phase := .dtohBit, count := 1,
        bits := appendedBits s.bits 0 false s.smp.idx }
    exec (.detectDR oh od clk) s = .next t ∧ exec (.detectDF oh od clk) s = .next t

/-- R106 with R108: `HBIT.R` and `HBIT.F` complete in every state whose occupied slots can be read. With `count = 0` and data 1
the sample is discarded and the phase is `DETECT`; with fewer than ten bits it is appended and the phase stays; the eleventh
bit emits the frame's 15 records, clears the accumulator and goes to `HTOD_TRAIL` (slot 2 must not end before slot 1, which holds
in every run: log 9); a full buffer (in no run) is left alone. Nothing else changes. The stop bit's end rests on the spec's
decision D8 (log 11). -/
def Obligations.HtodSamplingCompletes : Prop :=
  ∀ (s : State) (od : EdgeOpt) (dat : Edge),
    (s.count = 0 → s.smp.dat = true →
      exec (.hbitR od dat) s = .next { s with phase := .detect } ∧
      exec (.hbitF od dat) s = .next { s with phase := .detect }) ∧
    (s.count < 10 → (s.count ≠ 0 ∨ s.smp.dat = false) → Occupied s s.count.val →
      let t := { s with
        phase := .htodBit, count := s.count + 1,
        bits := appendedBits s.bits s.count.val s.smp.dat s.smp.idx }
      exec (.hbitR od dat) s = .next t ∧ exec (.hbitF od dat) s = .next t) ∧
    (∀ b : Fin 10 → Slot, s.count = 10 → (∀ i : Fin 10, s.bits[i.val] = some (b i)) →
      (b 1).endIdx ≤ (b 2).endIdx →
      let t := { s with
        phase := .htodTrail, count := 0, bits := emptyBits,
        out := s.out ++ recordsOfBits (completedBits b s.smp.dat s.smp.idx) }
      exec (.hbitR od dat) s = .next t ∧ exec (.hbitF od dat) s = .next t) ∧
    (10 < s.count →
      exec (.hbitR od dat) s = .next { s with phase := .htodBit } ∧
      exec (.hbitF od dat) s = .next { s with phase := .htodBit })

/-- R107 with R108: `DBIT.R` and `DBIT.F`, as R106 for the DtoH phases, with log 9 and D8 (log 11) as there. -/
def Obligations.DtohSamplingCompletes : Prop :=
  ∀ (s : State) (oh : EdgeOpt) (dat : Edge),
    (s.count = 0 → s.smp.dat = true →
      exec (.dbitR oh dat) s = .next { s with phase := .detect } ∧
      exec (.dbitF oh dat) s = .next { s with phase := .detect }) ∧
    (s.count < 10 → (s.count ≠ 0 ∨ s.smp.dat = false) → Occupied s s.count.val →
      let t := { s with
        phase := .dtohBit, count := s.count + 1,
        bits := appendedBits s.bits s.count.val s.smp.dat s.smp.idx }
      exec (.dbitR oh dat) s = .next t ∧ exec (.dbitF oh dat) s = .next t) ∧
    (∀ b : Fin 10 → Slot, s.count = 10 → (∀ i : Fin 10, s.bits[i.val] = some (b i)) →
      (b 1).endIdx ≤ (b 2).endIdx →
      let t := { s with
        phase := .dtohTrail, count := 0, bits := emptyBits,
        out := s.out ++ recordsOfBits (completedBits b s.smp.dat s.smp.idx) }
      exec (.dbitR oh dat) s = .next t ∧ exec (.dbitF oh dat) s = .next t) ∧
    (10 < s.count →
      exec (.dbitR oh dat) s = .next { s with phase := .dtohBit } ∧
      exec (.dbitF oh dat) s = .next { s with phase := .dtohBit })

/-- `HTRAIL`, `ACKS`, `ACKE` and `DTRAIL` complete in every state with exactly the writes R109 to R112 give them. -/
def Obligations.PostFrameCompletes : Prop :=
  ∀ (s : State) (oh od : EdgeOpt) (e : Edge),
    exec (.htrail oh od e) s = .next { s with phase := .ackWaitData } ∧
    exec (.acks oh od e) s = .next { s with ackStart := s.smp.idx, phase := .ackWaitClk } ∧
    exec (.acke oh od e) s = .next
      { s with
        out := s.out ++ [{ cat := .ack, startIdx := s.ackStart, endIdx := s.smp.idx, payload := 0x00#8 }],
        dir := .idle, phase := .detect } ∧
    exec (.dtrail oh od e) s = .next { s with dir := .idle, phase := .detect }

/-! ### The accumulator -/

/-- R81, R82, R83, R84, R87: `Capture` at every count. The guard at `count >= 11` and the idle filter change nothing; otherwise
the bit is appended, the previous bit's end is fixed up and the count goes up. It answers `FrameComplete` exactly when this call
makes the count 11. The stop bit's end rests on the spec's decision D8 (log 11), and slot 2 must not end before slot 1 (log 9). -/
def Obligations.CaptureOperation : Prop :=
  ∀ (s : State) (v : Level) (k : Nat),
    ((capture v k s).1 = .frameComplete ↔ s.count = 10) ∧
    (11 ≤ s.count ∨ (s.count = 0 ∧ v = true) → capture v k s = (.needMoreBits, s)) ∧
    (s.count < 10 → ¬ (s.count = 0 ∧ v = true) → Occupied s s.count.val →
      capture v k s = (.needMoreBits, { s with count := s.count + 1, bits := appendedBits s.bits s.count.val v k })) ∧
    (∀ b : Fin 10 → Slot, s.count = 10 → (∀ i : Fin 10, s.bits[i.val] = some (b i)) →
      (b 1).endIdx ≤ (b 2).endIdx →
      (capture v k s).2 = { s with count := 11, bits := Vector.ofFn fun i => some (completedBits b v k i) })

/-- R88 to R91, R93: `Finalize` on eleven occupied slots emits the 15 records of the frame in order, with the word read LSB first
and the parity category by odd parity, and clears the accumulator; nothing else changes. No check of the start or stop value
is made (R92): the clause holds for every value. -/
def Obligations.FinalizeOperation : Prop :=
  ∀ (s : State) (b : Fin 11 → Slot), (∀ i : Fin 11, s.bits[i] = some (b i)) →
    finalize s = { s with count := 0, bits := emptyBits, out := s.out ++ recordsOfBits b }

/-- R89 and R90 in the spec's arithmetic, for every state whose slots are occupied: the word that is assembled is the sum of
`bits[i+1].value << i`, its popcount is the number of data bits that are 1, and parity is right, and the parity category is
`parity-ok`, exactly when the count of 1s in word and parity bit is odd. -/
def Obligations.ParityValidator : Prop :=
  ∀ (s : State) (b : Fin 11 → Slot), (∀ i : Fin 11, s.bits[i] = some (b i)) →
    let ones := ((List.finRange 8).map fun i : Fin 8 => (b ⟨i.val + 1, by omega⟩).value.toNat).sum
    (assembleWord s).toNat = ((List.finRange 8).map fun i : Fin 8 => (b ⟨i.val + 1, by omega⟩).value.toNat * 2 ^ i.val).sum ∧
    popcount (assembleWord s) = ones ∧
    (parityOk (assembleWord s) (slotAt s 9).value = true ↔ (ones + (b 9).value.toNat) % 2 = 1) ∧
    parityCategory s = if (ones + (b 9).value.toNat) % 2 = 1 then .parityOk else .parityErr

/-- Eleven captures make one frame: from an empty accumulator, capturing a 0, the eight bits of any byte LSB first, any parity
and any stop value, at any strictly increasing indices, completes exactly at the eleventh, and `Finalize` then emits a frame
whose word is that byte, whose parity record is `parity-ok` exactly for odd parity, whose `bit` spans meet end to start, and
whose stop bit lasts one bit width (its sign is the spec's decision D8, log 11). -/
def Obligations.ElevenCapturesMakeAFrame : Prop :=
  ∀ (s : State) (w : Byte) (parity stop : Level) (k : Fin 11 → Nat), s.count = 0 →
    (∀ i j : Fin 11, i < j → k i < k j) →
    let level : Fin 11 → Level := fun i =>
      if i.val = 0 then false else if i.val ≤ 8 then w.getLsbD (i.val - 1) else if i.val = 9 then parity else stop
    let run : Nat → State := fun n =>
      ((List.finRange 11).take n).foldl (fun t i => (capture (level i) (k i) t).2) s
    let frame : Fin 11 → Slot := fun i =>
      { value := level i, startIdx := k i,
        endIdx := if h : i.val < 10 then k ⟨i.val + 1, by omega⟩ else k 10 + (k 3 - k 2) }
    (∀ i : Fin 11, (capture (level i) (k i) (run i.val)).1 = .frameComplete ↔ i = 10) ∧
    wordOfBits frame = w ∧
    finalize (run 11) = { s with count := 0, bits := emptyBits, out := s.out ++ recordsOfBits frame }

/-- R94: the labels of a `word` record, with the byte as exactly two lowercase hexadecimal digits (the case is the spec's
decision D16, log 11). -/
def Obligations.WordRecordLabels : Prop :=
  ∀ (a b : Nat) (w : Byte),
    let hh := String.ofList [Nat.digitChar (w.toNat / 16), Nat.digitChar (w.toNat % 16)]
    recordLabels { cat := .word, startIdx := a, endIdx := b, payload := w } = ["Data: " ++ hh, "D: " ++ hh, hh]

/-! ### Reset, configuration and the interface -/

/-- R150, R151, R152: a reset at any step boundary gives every element its reset value, latches the configuration inputs, and
adds no record. That the configuration inputs, the events still to come and the records already emitted are kept is the model's
own choice (log 23, with log 6 and log 3). -/
def Obligations.ResetBeginsRun : Prop :=
  ∀ (s : State) (rest : List Input), s.input = .reset :: rest →
    ∃ t, step s = .next t ∧
      t.phase = .detect ∧ t.dir = .idle ∧ t.count = 0 ∧ t.bits = emptyBits ∧ t.ackStart = 0 ∧ t.prevValid = false ∧
      t.optHtodEdge = s.cfgHtodEdge ∧ t.optDtohEdge = s.cfgDtohEdge ∧
      t.cfgHtodEdge = s.cfgHtodEdge ∧ t.cfgDtohEdge = s.cfgDtohEdge ∧
      t.input = rest ∧ t.out = s.out

/-- R33: the elements whose reset value the spec gives, in the machine's reset state; the options are at the defaults of R152. -/
def Obligations.ResetStateValues : Prop :=
  State.reset.phase = .detect ∧ State.reset.dir = .idle ∧ State.reset.count = 0 ∧
  (∀ i : Fin 11, State.reset.bits[i] = none) ∧ State.reset.ackStart = 0 ∧ State.reset.prevValid = false ∧
  State.reset.optHtodEdge = .rise ∧ State.reset.optDtohEdge = .fall

/-- R29, R49, R152: a reset latches the options from the configuration inputs, and no other step changes them; driving the
inputs during a run changes nothing but the inputs; without a choice the options are `rise` and `fall`. -/
def Obligations.OptionsChangeOnlyAtReset : Prop :=
  (∀ s t : State, step s = .next t →
    ((∀ rest, s.input ≠ .reset :: rest) → t.optHtodEdge = s.optHtodEdge ∧ t.optDtohEdge = s.optDtohEdge) ∧
    (∀ rest, s.input = .reset :: rest → t.optHtodEdge = s.cfgHtodEdge ∧ t.optDtohEdge = s.cfgDtohEdge) ∧
    (∀ h d rest, s.input = .config h d :: rest → t = { s with cfgHtodEdge := h, cfgDtohEdge := d, input := rest })) ∧
  State.reset.optHtodEdge = .rise ∧ State.reset.optDtohEdge = .fall

/-- The model's choice for R79 (log 2): with no further sample the state is left as it is. -/
def Obligations.EndOfStreamLeavesState : Prop :=
  ∀ s : State, s.input = [] → step s = .next s

/-- R77, R159: no step withdraws or changes a record; the step on a sample that completes a frame, which is the step that takes
`count` from 10 to 0, adds 15, which is `OUT_BUF`'s least value, and every other step adds at most one. -/
def Obligations.RecordsPerStep : Prop :=
  ∀ s t : State, step s = .next t →
    ∃ l : List Record, t.out = s.out ++ l ∧
      ((∃ x rest, s.input = .sample x :: rest) ∧ s.count = 10 ∧ t.count = 0 → l.length = Config.outBufMin) ∧
      (¬ ((∃ x rest, s.input = .sample x :: rest) ∧ s.count = 10 ∧ t.count = 0) → l.length ≤ 1)

/-- The payloads of R59 (the spec's decision D15, log 11), and C8 (its decision D24, log 11). No step emits a `data-bit` record,
a new record's payload is 0 or 1 unless it is a `word`, and an `ack`'s is 0. The step that completes a frame gives every record
the payload of its category: each `bit` the value captured in its slot, the start, parity and stop record those of slots 0, 9
and 10, and `word` the sum of the data bits. -/
def Obligations.RecordPayloads : Prop :=
  ∀ s t : State, step s = .next t →
    ∃ l : List Record, t.out = s.out ++ l ∧
      (∀ r ∈ l, r.cat ≠ .dataBit ∧ (r.cat ≠ .word → r.payload = 0#8 ∨ r.payload = 1#8) ∧ (r.cat = .ack → r.payload = 0#8)) ∧
      (∀ (x : Sample) (rest : List Input) (b : Fin 10 → Slot), s.input = .sample x :: rest → s.count = 10 →
        (∀ i : Fin 10, s.bits[i.val] = some (b i)) → t.count = 0 →
        let v : Fin 11 → Level := fun i => if h : i.val < 10 then (b ⟨i.val, h⟩).value else x.dat
        let shown : Fin 11 → Byte := fun i => 0#7 ++ BitVec.ofBool (v i)
        let word : Byte := BitVec.ofNat 8
          ((List.finRange 8).map fun i : Fin 8 => (v ⟨i.val + 1, by omega⟩).toNat * 2 ^ i.val).sum
        let ones := ((List.finRange 9).map fun i : Fin 9 => (v ⟨i.val + 1, by omega⟩).toNat).sum
        l.map (fun r => (r.cat, r.payload)) =
          (List.finRange 11).map (fun i => (Category.bit, shown i)) ++
            [(Category.startBit, shown 0), (Category.word, word),
             (if ones % 2 = 1 then Category.parityOk else Category.parityErr, shown 9), (Category.stopBit, shown 10)])

/-! ### Whole-machine rules and invariants -/

/-- Who writes what, over every step on a sample: `ack_start` changes only in `ACK_WAIT_DATA` on a data rising edge (R26),
the direction is written to `Idle` only at the end of a post-frame sequence and to HtoD or DtoH only by detection (R23, R115),
and the previous-level registers always hold the sample (R27, R101). -/
def Obligations.WritersOfRegisters : Prop :=
  ∀ (s t : State) (x : Sample) (rest : List Input), s.input = .sample x :: rest → step s = .next t →
    (t.ackStart ≠ s.ackStart → s.phase = .ackWaitData ∧ s.prevDat = false ∧ x.dat = true ∧ t.ackStart = x.idx) ∧
    (t.dir ≠ s.dir →
      (s.phase = .detect ∧ t.phase = .htodBit ∧ t.dir = .hostToDevice) ∨
      (s.phase = .detect ∧ t.phase = .dtohBit ∧ t.dir = .deviceToHost) ∨
      ((s.phase = .ackWaitClk ∨ s.phase = .dtohTrail) ∧ t.phase = .detect ∧ t.dir = .idle)) ∧
    t.prevClk = x.clk ∧ t.prevDat = x.dat ∧ t.prevValid = true ∧ t.lastIdx = x.idx ∧ t.smp = x ∧ t.input = rest

/-- R22, R55, R105, R108: the moves between phases. A step on a sample takes the block from its phase to another one exactly
along these arrows, and exactly when the sample has the edge that the wait condition names: out of `DETECT` a clock fall, or a
data edge without a clock fall (the spec's decisions D6 and D7, log 11); out of a sampling phase the edge its option selects,
with a discarded sample or the eleventh bit; out of each later phase its rising edge. No arrow is taken before the first sample
of a run. -/
def Obligations.PhaseMoves : Prop :=
  ∀ (s t : State) (x : Sample) (rest : List Input), s.input = .sample x :: rest → step s = .next t →
    let clk := edgeBetween s.prevClk x.clk
    let dat := edgeBetween s.prevDat x.dat
    ∀ q : Phase, q ≠ s.phase → (t.phase = q ↔ s.prevValid = true ∧
      ((s.phase = .detect ∧ q = .htodBit ∧ clk = .fall) ∨
       (s.phase = .detect ∧ q = .dtohBit ∧ clk ≠ .fall ∧ dat ≠ .none) ∨
       (s.phase = .htodBit ∧ q = .detect ∧ clk = s.optHtodEdge.edge ∧ s.count = 0 ∧ x.dat = true) ∨
       (s.phase = .htodBit ∧ q = .htodTrail ∧ clk = s.optHtodEdge.edge ∧ s.count = 10) ∨
       (s.phase = .dtohBit ∧ q = .detect ∧ clk = s.optDtohEdge.edge ∧ s.count = 0 ∧ x.dat = true) ∨
       (s.phase = .dtohBit ∧ q = .dtohTrail ∧ clk = s.optDtohEdge.edge ∧ s.count = 10) ∨
       (s.phase = .htodTrail ∧ q = .ackWaitData ∧ clk = .rise) ∨
       (s.phase = .ackWaitData ∧ q = .ackWaitClk ∧ dat = .rise) ∨
       (s.phase = .ackWaitClk ∧ q = .detect ∧ clk = .rise) ∨
       (s.phase = .dtohTrail ∧ q = .detect ∧ clk = .rise)))

/-- R117: after the step that ends a post-frame sequence the block is in `DETECT` with an empty accumulator and direction
`Idle`. -/
def Obligations.PostFrameLeavesNoState : Prop :=
  ∀ (s t : State) (x : Sample) (rest : List Input), Invariant s → s.input = .sample x :: rest → step s = .next t →
    (s.phase = .ackWaitClk ∨ s.phase = .dtohTrail) → t.phase ≠ s.phase →
    t.phase = .detect ∧ t.count = 0 ∧ t.bits = emptyBits ∧ t.dir = .idle

/-- The invariant (R32 with the model's own strengthening, log 24) holds right after reset. -/
def Obligations.ResetStateMeetsInvariant : Prop :=
  Invariant State.reset

/-- Every step keeps the invariant, from every state that meets it and on every input. The invariant is R32's nine clauses with
the model's own strengthening (log 24): the occupancy of R61, and captured bits and a started ACK no later than the last
sample. -/
def Obligations.StepKeepsInvariant : Prop :=
  ∀ s t : State, Invariant s → step s = .next t → Invariant t

/-- R32: the nine invariants hold between any two steps of every run from reset, whatever the environment presents and whatever
configuration was latched. -/
def Obligations.RunsFromResetMeetR32 : Prop :=
  ∀ (h d : EdgeOpt) (stream : List Input) (n : Nat) (t : State),
    Sys2Proof.core.run n { State.reset with optHtodEdge := h, optDtohEdge := d, input := stream } = .next t →
    ResetInvariant t

/-- R131: a stream that keeps R72 never makes the machine fault or refuse, from any state of the invariant and so from reset. -/
def Obligations.OrderedStreamsNeverFault : Prop :=
  ∀ (s : State) (n : Nat), Invariant s → StreamInOrder (lastSample s) s.input → ∃ t, Sys2Proof.core.run n s = .next t

/-- R95: in the records of every finalised frame the eleven `bit` spans are not empty and meet end to start, and the stop bit
lasts as long as the distance between the ends of slots 1 and 2 (the spec's decision D8, log 11). -/
def Obligations.FrameSpans : Prop :=
  ∀ (s t : State) (l : List Record), Invariant s → step s = .next t → t.out = s.out ++ l → l.length = 15 →
    ∃ b : Fin 11 → Record,
      (∀ i : Fin 11, l[i.val]? = some (b i) ∧ (b i).cat = .bit) ∧
      (∀ i : Fin 10, (b i.castSucc).endIdx = (b i.succ).startIdx) ∧
      (∀ i : Fin 11, (b i).startIdx < (b i).endIdx) ∧
      (b 10).endIdx = (b 10).startIdx + ((b 2).endIdx - (b 1).endIdx)

/-- R47 (c) and (d): within a run, every record a step emits starts later than every record emitted before that step, so each
frame group comes wholly after the groups before it and an `ack` starts after its frame's stop bit. The property that makes
this so is kept by every step on a sample. -/
def Obligations.GroupsLeaveInOrder : Prop :=
  ∀ (s t : State) (x : Sample) (rest : List Input), Invariant s → OutputBehind s → s.input = .sample x :: rest →
    step s = .next t →
    OutputBehind t ∧
    ∃ l : List Record, t.out = s.out ++ l ∧ ∀ r ∈ l, ∀ q ∈ s.out, q.startIdx < r.startIdx

/-- R118, R23: the value of `dir` is unobservable. Whatever legal direction a state has, every run from it gives the same
outcome and the same state but for `dir` itself. -/
def Obligations.DirectionUnobservable : Prop :=
  ∀ (s : State) (d : Direction) (n : Nat), s.dir ≠ .reserved → d ≠ .reserved →
    SameButDir (Sys2Proof.core.run n { s with dir := d }) (Sys2Proof.core.run n s)

/-- R33, R74: before the first sample of a run, what `prev_clk`, `prev_dat` and `last_idx` hold makes no difference to the step on
that sample. -/
def Obligations.UnsetRegistersUnread : Prop :=
  ∀ (s : State) (c e : Level) (k : Nat) (x : Sample) (rest : List Input), s.input = .sample x :: rest →
    s.prevValid = false →
    step { s with prevClk := c, prevDat := e, lastIdx := k } = step s

/-- R116, first bullet: no phase is terminal. From every state of the invariant (R32 with log 24) there are at most twenty
samples on which the machine runs without a stop to a state in another phase. -/
def Obligations.EveryPhaseCanBeLeft : Prop :=
  ∀ s : State, Invariant s → ∃ (l : List Sample) (t : State), l.length ≤ 20 ∧
    Sys2Proof.core.run l.length { s with input := l.map .sample } = .next t ∧ t.phase ≠ s.phase
end

