-- ==== Sys2Proof/Laws/Decode.lean ====
section
/-! SUPPORT. The small lemmas of the encodings: codes and fields read back what was written. -/

namespace Sys2Proof

@[simp] theorem Phase.ofCode_code (p : Phase) : Phase.ofCode p.code = p := by cases p <;> rfl

@[simp] theorem EdgeOpt.ofCode_code (e : EdgeOpt) : EdgeOpt.ofCode e.code = e := by cases e <;> rfl

@[simp] theorem Edge.ofBits_bits (e : Edge) : Edge.ofBits e.riseBit e.fallBit = e := by cases e <;> rfl

/-- The fields of a packed selector are the fields that were packed. -/
@[simp] theorem unpackFields_packFields (f : Fields) : unpackFields (packFields f) = f := by
  obtain ⟨pv, ph, oh, od, cr, cf, dr, df⟩ := f
  cases pv <;> cases ph <;> cases oh <;> cases od <;> cases cr <;> cases cf <;> cases dr <;> cases df <;> rfl

end Sys2Proof
end

