-- ==== Sys2Proof/Laws/State.lean ====
section
/-! SUPPORT. One lemma per field per update of the state. -/

namespace Sys2Proof.Machine

@[simp] theorem setPhase_phase (p : Phase) (s : State) : (setPhase p s).phase = p := rfl
@[simp] theorem setPhase_dir (p : Phase) (s : State) : (setPhase p s).dir = s.dir := rfl
@[simp] theorem setPhase_count (p : Phase) (s : State) : (setPhase p s).count = s.count := rfl
@[simp] theorem setPhase_bits (p : Phase) (s : State) : (setPhase p s).bits = s.bits := rfl
@[simp] theorem setPhase_ackStart (p : Phase) (s : State) : (setPhase p s).ackStart = s.ackStart := rfl
@[simp] theorem setPhase_prevClk (p : Phase) (s : State) : (setPhase p s).prevClk = s.prevClk := rfl
@[simp] theorem setPhase_prevDat (p : Phase) (s : State) : (setPhase p s).prevDat = s.prevDat := rfl
@[simp] theorem setPhase_prevValid (p : Phase) (s : State) : (setPhase p s).prevValid = s.prevValid := rfl
@[simp] theorem setPhase_lastIdx (p : Phase) (s : State) : (setPhase p s).lastIdx = s.lastIdx := rfl
@[simp] theorem setPhase_optHtodEdge (p : Phase) (s : State) : (setPhase p s).optHtodEdge = s.optHtodEdge := rfl
@[simp] theorem setPhase_optDtohEdge (p : Phase) (s : State) : (setPhase p s).optDtohEdge = s.optDtohEdge := rfl
@[simp] theorem setPhase_cfgHtodEdge (p : Phase) (s : State) : (setPhase p s).cfgHtodEdge = s.cfgHtodEdge := rfl
@[simp] theorem setPhase_cfgDtohEdge (p : Phase) (s : State) : (setPhase p s).cfgDtohEdge = s.cfgDtohEdge := rfl
@[simp] theorem setPhase_smp (p : Phase) (s : State) : (setPhase p s).smp = s.smp := rfl
@[simp] theorem setPhase_input (p : Phase) (s : State) : (setPhase p s).input = s.input := rfl
@[simp] theorem setPhase_out (p : Phase) (s : State) : (setPhase p s).out = s.out := rfl

@[simp] theorem setDir_phase (d : Direction) (s : State) : (setDir d s).phase = s.phase := rfl
@[simp] theorem setDir_dir (d : Direction) (s : State) : (setDir d s).dir = d := rfl
@[simp] theorem setDir_count (d : Direction) (s : State) : (setDir d s).count = s.count := rfl
@[simp] theorem setDir_bits (d : Direction) (s : State) : (setDir d s).bits = s.bits := rfl
@[simp] theorem setDir_ackStart (d : Direction) (s : State) : (setDir d s).ackStart = s.ackStart := rfl
@[simp] theorem setDir_prevClk (d : Direction) (s : State) : (setDir d s).prevClk = s.prevClk := rfl
@[simp] theorem setDir_prevDat (d : Direction) (s : State) : (setDir d s).prevDat = s.prevDat := rfl
@[simp] theorem setDir_prevValid (d : Direction) (s : State) : (setDir d s).prevValid = s.prevValid := rfl
@[simp] theorem setDir_lastIdx (d : Direction) (s : State) : (setDir d s).lastIdx = s.lastIdx := rfl
@[simp] theorem setDir_optHtodEdge (d : Direction) (s : State) : (setDir d s).optHtodEdge = s.optHtodEdge := rfl
@[simp] theorem setDir_optDtohEdge (d : Direction) (s : State) : (setDir d s).optDtohEdge = s.optDtohEdge := rfl
@[simp] theorem setDir_cfgHtodEdge (d : Direction) (s : State) : (setDir d s).cfgHtodEdge = s.cfgHtodEdge := rfl
@[simp] theorem setDir_cfgDtohEdge (d : Direction) (s : State) : (setDir d s).cfgDtohEdge = s.cfgDtohEdge := rfl
@[simp] theorem setDir_smp (d : Direction) (s : State) : (setDir d s).smp = s.smp := rfl
@[simp] theorem setDir_input (d : Direction) (s : State) : (setDir d s).input = s.input := rfl
@[simp] theorem setDir_out (d : Direction) (s : State) : (setDir d s).out = s.out := rfl

@[simp] theorem setCount_phase (n : Fin 16) (s : State) : (setCount n s).phase = s.phase := rfl
@[simp] theorem setCount_dir (n : Fin 16) (s : State) : (setCount n s).dir = s.dir := rfl
@[simp] theorem setCount_count (n : Fin 16) (s : State) : (setCount n s).count = n := rfl
@[simp] theorem setCount_bits (n : Fin 16) (s : State) : (setCount n s).bits = s.bits := rfl
@[simp] theorem setCount_ackStart (n : Fin 16) (s : State) : (setCount n s).ackStart = s.ackStart := rfl
@[simp] theorem setCount_prevClk (n : Fin 16) (s : State) : (setCount n s).prevClk = s.prevClk := rfl
@[simp] theorem setCount_prevDat (n : Fin 16) (s : State) : (setCount n s).prevDat = s.prevDat := rfl
@[simp] theorem setCount_prevValid (n : Fin 16) (s : State) : (setCount n s).prevValid = s.prevValid := rfl
@[simp] theorem setCount_lastIdx (n : Fin 16) (s : State) : (setCount n s).lastIdx = s.lastIdx := rfl
@[simp] theorem setCount_optHtodEdge (n : Fin 16) (s : State) : (setCount n s).optHtodEdge = s.optHtodEdge := rfl
@[simp] theorem setCount_optDtohEdge (n : Fin 16) (s : State) : (setCount n s).optDtohEdge = s.optDtohEdge := rfl
@[simp] theorem setCount_cfgHtodEdge (n : Fin 16) (s : State) : (setCount n s).cfgHtodEdge = s.cfgHtodEdge := rfl
@[simp] theorem setCount_cfgDtohEdge (n : Fin 16) (s : State) : (setCount n s).cfgDtohEdge = s.cfgDtohEdge := rfl
@[simp] theorem setCount_smp (n : Fin 16) (s : State) : (setCount n s).smp = s.smp := rfl
@[simp] theorem setCount_input (n : Fin 16) (s : State) : (setCount n s).input = s.input := rfl
@[simp] theorem setCount_out (n : Fin 16) (s : State) : (setCount n s).out = s.out := rfl

@[simp] theorem setAckStart_phase (n : Nat) (s : State) : (setAckStart n s).phase = s.phase := rfl
@[simp] theorem setAckStart_dir (n : Nat) (s : State) : (setAckStart n s).dir = s.dir := rfl
@[simp] theorem setAckStart_count (n : Nat) (s : State) : (setAckStart n s).count = s.count := rfl
@[simp] theorem setAckStart_bits (n : Nat) (s : State) : (setAckStart n s).bits = s.bits := rfl
@[simp] theorem setAckStart_ackStart (n : Nat) (s : State) : (setAckStart n s).ackStart = n := rfl
@[simp] theorem setAckStart_prevClk (n : Nat) (s : State) : (setAckStart n s).prevClk = s.prevClk := rfl
@[simp] theorem setAckStart_prevDat (n : Nat) (s : State) : (setAckStart n s).prevDat = s.prevDat := rfl
@[simp] theorem setAckStart_prevValid (n : Nat) (s : State) : (setAckStart n s).prevValid = s.prevValid := rfl
@[simp] theorem setAckStart_lastIdx (n : Nat) (s : State) : (setAckStart n s).lastIdx = s.lastIdx := rfl
@[simp] theorem setAckStart_optHtodEdge (n : Nat) (s : State) : (setAckStart n s).optHtodEdge = s.optHtodEdge := rfl
@[simp] theorem setAckStart_optDtohEdge (n : Nat) (s : State) : (setAckStart n s).optDtohEdge = s.optDtohEdge := rfl
@[simp] theorem setAckStart_cfgHtodEdge (n : Nat) (s : State) : (setAckStart n s).cfgHtodEdge = s.cfgHtodEdge := rfl
@[simp] theorem setAckStart_cfgDtohEdge (n : Nat) (s : State) : (setAckStart n s).cfgDtohEdge = s.cfgDtohEdge := rfl
@[simp] theorem setAckStart_smp (n : Nat) (s : State) : (setAckStart n s).smp = s.smp := rfl
@[simp] theorem setAckStart_input (n : Nat) (s : State) : (setAckStart n s).input = s.input := rfl
@[simp] theorem setAckStart_out (n : Nat) (s : State) : (setAckStart n s).out = s.out := rfl

@[simp] theorem putSlot_phase (i : Nat) (x : Slot) (s : State) : (putSlot i x s).phase = s.phase := rfl
@[simp] theorem putSlot_dir (i : Nat) (x : Slot) (s : State) : (putSlot i x s).dir = s.dir := rfl
@[simp] theorem putSlot_count (i : Nat) (x : Slot) (s : State) : (putSlot i x s).count = s.count := rfl
@[simp] theorem putSlot_bits (i : Nat) (x : Slot) (s : State) : (putSlot i x s).bits = s.bits.setIfInBounds i (some x) := rfl
@[simp] theorem putSlot_ackStart (i : Nat) (x : Slot) (s : State) : (putSlot i x s).ackStart = s.ackStart := rfl
@[simp] theorem putSlot_prevClk (i : Nat) (x : Slot) (s : State) : (putSlot i x s).prevClk = s.prevClk := rfl
@[simp] theorem putSlot_prevDat (i : Nat) (x : Slot) (s : State) : (putSlot i x s).prevDat = s.prevDat := rfl
@[simp] theorem putSlot_prevValid (i : Nat) (x : Slot) (s : State) : (putSlot i x s).prevValid = s.prevValid := rfl
@[simp] theorem putSlot_lastIdx (i : Nat) (x : Slot) (s : State) : (putSlot i x s).lastIdx = s.lastIdx := rfl
@[simp] theorem putSlot_optHtodEdge (i : Nat) (x : Slot) (s : State) : (putSlot i x s).optHtodEdge = s.optHtodEdge := rfl
@[simp] theorem putSlot_optDtohEdge (i : Nat) (x : Slot) (s : State) : (putSlot i x s).optDtohEdge = s.optDtohEdge := rfl
@[simp] theorem putSlot_cfgHtodEdge (i : Nat) (x : Slot) (s : State) : (putSlot i x s).cfgHtodEdge = s.cfgHtodEdge := rfl
@[simp] theorem putSlot_cfgDtohEdge (i : Nat) (x : Slot) (s : State) : (putSlot i x s).cfgDtohEdge = s.cfgDtohEdge := rfl
@[simp] theorem putSlot_smp (i : Nat) (x : Slot) (s : State) : (putSlot i x s).smp = s.smp := rfl
@[simp] theorem putSlot_input (i : Nat) (x : Slot) (s : State) : (putSlot i x s).input = s.input := rfl
@[simp] theorem putSlot_out (i : Nat) (x : Slot) (s : State) : (putSlot i x s).out = s.out := rfl

@[simp] theorem clearSlots_phase (s : State) : (clearSlots s).phase = s.phase := rfl
@[simp] theorem clearSlots_dir (s : State) : (clearSlots s).dir = s.dir := rfl
@[simp] theorem clearSlots_count (s : State) : (clearSlots s).count = s.count := rfl
@[simp] theorem clearSlots_bits (s : State) : (clearSlots s).bits = Vector.replicate 11 none := rfl
@[simp] theorem clearSlots_ackStart (s : State) : (clearSlots s).ackStart = s.ackStart := rfl
@[simp] theorem clearSlots_prevClk (s : State) : (clearSlots s).prevClk = s.prevClk := rfl
@[simp] theorem clearSlots_prevDat (s : State) : (clearSlots s).prevDat = s.prevDat := rfl
@[simp] theorem clearSlots_prevValid (s : State) : (clearSlots s).prevValid = s.prevValid := rfl
@[simp] theorem clearSlots_lastIdx (s : State) : (clearSlots s).lastIdx = s.lastIdx := rfl
@[simp] theorem clearSlots_optHtodEdge (s : State) : (clearSlots s).optHtodEdge = s.optHtodEdge := rfl
@[simp] theorem clearSlots_optDtohEdge (s : State) : (clearSlots s).optDtohEdge = s.optDtohEdge := rfl
@[simp] theorem clearSlots_cfgHtodEdge (s : State) : (clearSlots s).cfgHtodEdge = s.cfgHtodEdge := rfl
@[simp] theorem clearSlots_cfgDtohEdge (s : State) : (clearSlots s).cfgDtohEdge = s.cfgDtohEdge := rfl
@[simp] theorem clearSlots_smp (s : State) : (clearSlots s).smp = s.smp := rfl
@[simp] theorem clearSlots_input (s : State) : (clearSlots s).input = s.input := rfl
@[simp] theorem clearSlots_out (s : State) : (clearSlots s).out = s.out := rfl

@[simp] theorem emitAll_phase (rs : List Record) (s : State) : (emitAll rs s).phase = s.phase := rfl
@[simp] theorem emitAll_dir (rs : List Record) (s : State) : (emitAll rs s).dir = s.dir := rfl
@[simp] theorem emitAll_count (rs : List Record) (s : State) : (emitAll rs s).count = s.count := rfl
@[simp] theorem emitAll_bits (rs : List Record) (s : State) : (emitAll rs s).bits = s.bits := rfl
@[simp] theorem emitAll_ackStart (rs : List Record) (s : State) : (emitAll rs s).ackStart = s.ackStart := rfl
@[simp] theorem emitAll_prevClk (rs : List Record) (s : State) : (emitAll rs s).prevClk = s.prevClk := rfl
@[simp] theorem emitAll_prevDat (rs : List Record) (s : State) : (emitAll rs s).prevDat = s.prevDat := rfl
@[simp] theorem emitAll_prevValid (rs : List Record) (s : State) : (emitAll rs s).prevValid = s.prevValid := rfl
@[simp] theorem emitAll_lastIdx (rs : List Record) (s : State) : (emitAll rs s).lastIdx = s.lastIdx := rfl
@[simp] theorem emitAll_optHtodEdge (rs : List Record) (s : State) : (emitAll rs s).optHtodEdge = s.optHtodEdge := rfl
@[simp] theorem emitAll_optDtohEdge (rs : List Record) (s : State) : (emitAll rs s).optDtohEdge = s.optDtohEdge := rfl
@[simp] theorem emitAll_cfgHtodEdge (rs : List Record) (s : State) : (emitAll rs s).cfgHtodEdge = s.cfgHtodEdge := rfl
@[simp] theorem emitAll_cfgDtohEdge (rs : List Record) (s : State) : (emitAll rs s).cfgDtohEdge = s.cfgDtohEdge := rfl
@[simp] theorem emitAll_smp (rs : List Record) (s : State) : (emitAll rs s).smp = s.smp := rfl
@[simp] theorem emitAll_input (rs : List Record) (s : State) : (emitAll rs s).input = s.input := rfl
@[simp] theorem emitAll_out (rs : List Record) (s : State) : (emitAll rs s).out = s.out ++ rs := rfl

@[simp] theorem presentSample_phase (x : Sample) (rest : List Input) (s : State) : (presentSample x rest s).phase = s.phase := rfl
@[simp] theorem presentSample_dir (x : Sample) (rest : List Input) (s : State) : (presentSample x rest s).dir = s.dir := rfl
@[simp] theorem presentSample_count (x : Sample) (rest : List Input) (s : State) : (presentSample x rest s).count = s.count := rfl
@[simp] theorem presentSample_bits (x : Sample) (rest : List Input) (s : State) : (presentSample x rest s).bits = s.bits := rfl
@[simp] theorem presentSample_ackStart (x : Sample) (rest : List Input) (s : State) : (presentSample x rest s).ackStart = s.ackStart := rfl
@[simp] theorem presentSample_prevClk (x : Sample) (rest : List Input) (s : State) : (presentSample x rest s).prevClk = s.prevClk := rfl
@[simp] theorem presentSample_prevDat (x : Sample) (rest : List Input) (s : State) : (presentSample x rest s).prevDat = s.prevDat := rfl
@[simp] theorem presentSample_prevValid (x : Sample) (rest : List Input) (s : State) : (presentSample x rest s).prevValid = s.prevValid := rfl
@[simp] theorem presentSample_lastIdx (x : Sample) (rest : List Input) (s : State) : (presentSample x rest s).lastIdx = s.lastIdx := rfl
@[simp] theorem presentSample_optHtodEdge (x : Sample) (rest : List Input) (s : State) : (presentSample x rest s).optHtodEdge = s.optHtodEdge := rfl
@[simp] theorem presentSample_optDtohEdge (x : Sample) (rest : List Input) (s : State) : (presentSample x rest s).optDtohEdge = s.optDtohEdge := rfl
@[simp] theorem presentSample_cfgHtodEdge (x : Sample) (rest : List Input) (s : State) : (presentSample x rest s).cfgHtodEdge = s.cfgHtodEdge := rfl
@[simp] theorem presentSample_cfgDtohEdge (x : Sample) (rest : List Input) (s : State) : (presentSample x rest s).cfgDtohEdge = s.cfgDtohEdge := rfl
@[simp] theorem presentSample_smp (x : Sample) (rest : List Input) (s : State) : (presentSample x rest s).smp = x := rfl
@[simp] theorem presentSample_input (x : Sample) (rest : List Input) (s : State) : (presentSample x rest s).input = rest := rfl
@[simp] theorem presentSample_out (x : Sample) (rest : List Input) (s : State) : (presentSample x rest s).out = s.out := rfl

@[simp] theorem loadPrevious_phase (s : State) : (loadPrevious s).phase = s.phase := rfl
@[simp] theorem loadPrevious_dir (s : State) : (loadPrevious s).dir = s.dir := rfl
@[simp] theorem loadPrevious_count (s : State) : (loadPrevious s).count = s.count := rfl
@[simp] theorem loadPrevious_bits (s : State) : (loadPrevious s).bits = s.bits := rfl
@[simp] theorem loadPrevious_ackStart (s : State) : (loadPrevious s).ackStart = s.ackStart := rfl
@[simp] theorem loadPrevious_prevClk (s : State) : (loadPrevious s).prevClk = s.smp.clk := rfl
@[simp] theorem loadPrevious_prevDat (s : State) : (loadPrevious s).prevDat = s.smp.dat := rfl
@[simp] theorem loadPrevious_prevValid (s : State) : (loadPrevious s).prevValid = true := rfl
@[simp] theorem loadPrevious_lastIdx (s : State) : (loadPrevious s).lastIdx = s.smp.idx := rfl
@[simp] theorem loadPrevious_optHtodEdge (s : State) : (loadPrevious s).optHtodEdge = s.optHtodEdge := rfl
@[simp] theorem loadPrevious_optDtohEdge (s : State) : (loadPrevious s).optDtohEdge = s.optDtohEdge := rfl
@[simp] theorem loadPrevious_cfgHtodEdge (s : State) : (loadPrevious s).cfgHtodEdge = s.cfgHtodEdge := rfl
@[simp] theorem loadPrevious_cfgDtohEdge (s : State) : (loadPrevious s).cfgDtohEdge = s.cfgDtohEdge := rfl
@[simp] theorem loadPrevious_smp (s : State) : (loadPrevious s).smp = s.smp := rfl
@[simp] theorem loadPrevious_input (s : State) : (loadPrevious s).input = s.input := rfl
@[simp] theorem loadPrevious_out (s : State) : (loadPrevious s).out = s.out := rfl

@[simp] theorem driveConfig_phase (h d : EdgeOpt) (rest : List Input) (s : State) : (driveConfig h d rest s).phase = s.phase := rfl
@[simp] theorem driveConfig_dir (h d : EdgeOpt) (rest : List Input) (s : State) : (driveConfig h d rest s).dir = s.dir := rfl
@[simp] theorem driveConfig_count (h d : EdgeOpt) (rest : List Input) (s : State) : (driveConfig h d rest s).count = s.count := rfl
@[simp] theorem driveConfig_bits (h d : EdgeOpt) (rest : List Input) (s : State) : (driveConfig h d rest s).bits = s.bits := rfl
@[simp] theorem driveConfig_ackStart (h d : EdgeOpt) (rest : List Input) (s : State) : (driveConfig h d rest s).ackStart = s.ackStart := rfl
@[simp] theorem driveConfig_prevClk (h d : EdgeOpt) (rest : List Input) (s : State) : (driveConfig h d rest s).prevClk = s.prevClk := rfl
@[simp] theorem driveConfig_prevDat (h d : EdgeOpt) (rest : List Input) (s : State) : (driveConfig h d rest s).prevDat = s.prevDat := rfl
@[simp] theorem driveConfig_prevValid (h d : EdgeOpt) (rest : List Input) (s : State) : (driveConfig h d rest s).prevValid = s.prevValid := rfl
@[simp] theorem driveConfig_lastIdx (h d : EdgeOpt) (rest : List Input) (s : State) : (driveConfig h d rest s).lastIdx = s.lastIdx := rfl
@[simp] theorem driveConfig_optHtodEdge (h d : EdgeOpt) (rest : List Input) (s : State) : (driveConfig h d rest s).optHtodEdge = s.optHtodEdge := rfl
@[simp] theorem driveConfig_optDtohEdge (h d : EdgeOpt) (rest : List Input) (s : State) : (driveConfig h d rest s).optDtohEdge = s.optDtohEdge := rfl
@[simp] theorem driveConfig_cfgHtodEdge (h d : EdgeOpt) (rest : List Input) (s : State) : (driveConfig h d rest s).cfgHtodEdge = h := rfl
@[simp] theorem driveConfig_cfgDtohEdge (h d : EdgeOpt) (rest : List Input) (s : State) : (driveConfig h d rest s).cfgDtohEdge = d := rfl
@[simp] theorem driveConfig_smp (h d : EdgeOpt) (rest : List Input) (s : State) : (driveConfig h d rest s).smp = s.smp := rfl
@[simp] theorem driveConfig_input (h d : EdgeOpt) (rest : List Input) (s : State) : (driveConfig h d rest s).input = rest := rfl
@[simp] theorem driveConfig_out (h d : EdgeOpt) (rest : List Input) (s : State) : (driveConfig h d rest s).out = s.out := rfl

end Sys2Proof.Machine
end

