-- ==== Sys2Proof/Laws/Ops.lean ====
section
/-! SUPPORT. One lemma per shared operation: what it changes and what it leaves, so that no proof has to unfold it. -/

namespace Sys2Proof.Machine

/-! ### Slots -/

theorem slotAt_eq_of_some {s : State} {i : Nat} {x : Slot} (h : s.bits[i]? = some (some x)) : slotAt s i = x := by
  simp [slotAt, h]

/-- An occupied slot reads as itself. -/
theorem slotAt_of_getElem {s : State} {i : Nat} (hi : i < 11) {x : Slot} (h : s.bits[i] = some x) : slotAt s i = x := by
  simp [slotAt, hi, h]

/-- A read after a write to the same slot gives the value written. -/
@[simp] theorem slotAt_putSlot_self {i : Nat} (hi : i < 11) (x : Slot) (s : State) : slotAt (putSlot i x s) i = x := by
  simp [slotAt, hi]

/-- A write to one slot leaves the others alone. -/
theorem slotAt_putSlot_ne {i j : Nat} (h : i ≠ j) (x : Slot) (s : State) : slotAt (putSlot i x s) j = slotAt s j := by
  simp [slotAt, h]

@[simp] theorem slotAt_setPhase (p : Phase) (s : State) (i : Nat) : slotAt (setPhase p s) i = slotAt s i := rfl
@[simp] theorem slotAt_setDir (d : Direction) (s : State) (i : Nat) : slotAt (setDir d s) i = slotAt s i := rfl
@[simp] theorem slotAt_setCount (n : Fin 16) (s : State) (i : Nat) : slotAt (setCount n s) i = slotAt s i := rfl
@[simp] theorem slotAt_setAckStart (n : Nat) (s : State) (i : Nat) : slotAt (setAckStart n s) i = slotAt s i := rfl
@[simp] theorem slotAt_emitAll (rs : List Record) (s : State) (i : Nat) : slotAt (emitAll rs s) i = slotAt s i := rfl
@[simp] theorem slotAt_presentSample (x : Sample) (rest : List Input) (s : State) (i : Nat) :
    slotAt (presentSample x rest s) i = slotAt s i := rfl

/-- An occupied slot reads the same after the wrapper has moved `last_idx` on. -/
theorem slotAt_loadPrevious {s : State} {i : Nat} (hi : i < 11) (h : s.bits[i].isSome = true) :
    slotAt (loadPrevious s) i = slotAt s i := by
  obtain ⟨x, hx⟩ := Option.isSome_iff_exists.mp h
  rw [slotAt_of_getElem hi hx, slotAt_of_getElem hi (by simpa using hx)]

/-! ### The bit buffer operations change the buffer only -/

theorem setSlotEnd_eq (i n : Nat) (s : State) : setSlotEnd i n s = { s with bits := (setSlotEnd i n s).bits } := rfl

theorem fixPreviousEnd_eq (n k : Nat) (s : State) :
    fixPreviousEnd n k s = { s with bits := (fixPreviousEnd n k s).bits } := by
  unfold fixPreviousEnd
  split <;> rfl

theorem appendBit_eq (v : Level) (k : Nat) (s : State) :
    appendBit v k s = { s with count := s.count + 1, bits := (appendBit v k s).bits } := by
  unfold appendBit
  rw [fixPreviousEnd_eq]
  rfl

@[simp] theorem appendBit_count (v : Level) (k : Nat) (s : State) : (appendBit v k s).count = s.count + 1 := rfl

theorem synthesizeStopEnd_eq (s : State) : synthesizeStopEnd s = { s with bits := (synthesizeStopEnd s).bits } := rfl

/-- Whatever `Capture` does, it does to the count and the buffer. -/
theorem capture_eq (v : Level) (k : Nat) (s : State) :
    (capture v k s).2 = { s with count := (capture v k s).2.count, bits := (capture v k s).2.bits } := by
  unfold capture
  split
  · rfl
  split
  · rfl
  split
  · simp only []
    rw [synthesizeStopEnd_eq, appendBit_eq]
  · simp only []
    rw [appendBit_eq]

/-- The four things `Capture` can do: nothing at a full buffer, nothing to an idle sample, the eleventh bit, an earlier bit. -/
theorem capture_cases (v : Level) (k : Nat) (s : State) :
    (11 ≤ s.count ∧ capture v k s = (.needMoreBits, s)) ∨
    (s.count = 0 ∧ v = true ∧ capture v k s = (.needMoreBits, s)) ∨
    (s.count = 10 ∧ capture v k s = (.frameComplete, synthesizeStopEnd (appendBit v k s))) ∨
    (s.count < 10 ∧ ¬ (s.count = 0 ∧ v = true) ∧ capture v k s = (.needMoreBits, appendBit v k s)) := by
  have key : ∀ c : Fin 16, ¬ 11 ≤ c → (c + 1 = 11 ↔ c = 10) ∧ (c ≠ 10 → c < 10) := by decide
  unfold capture
  by_cases h1 : 11 ≤ s.count
  · exact .inl ⟨h1, by simp [h1]⟩
  by_cases h2 : s.count = 0 ∧ v = true
  · exact .inr (.inl ⟨h2.1, h2.2, by simp [h2]⟩)
  by_cases h3 : s.count = 10
  · exact .inr (.inr (.inl ⟨h3, by simp [h3]⟩))
  · exact .inr (.inr (.inr ⟨(key _ h1).2 h3, h2, by simp [h1, h2, (key _ h1).1, h3]⟩))

/-- `Finalize` appends the frame's records and clears the accumulator; nothing else changes. -/
theorem finalize_eq (s : State) :
    finalize s = { s with count := 0, bits := Vector.replicate 11 none, out := s.out ++ frameRecords s } := rfl

/-- A frame has fifteen records (R91). -/
@[simp] theorem frameRecords_length (s : State) : (frameRecords s).length = 15 := by simp [frameRecords]

/-- The three ends of a sampling transition (R106 to R108): nothing captured, a bit appended, or a frame finalized. -/
theorem sampleBit_cases (stay trail : Phase) (s : State) :
    (11 ≤ s.count ∧ sampleBit stay trail s = setPhase stay s) ∨
    (s.count = 0 ∧ s.smp.dat = true ∧ sampleBit stay trail s = setPhase .detect s) ∨
    (s.count = 10 ∧ sampleBit stay trail s =
      setPhase trail (finalize (synthesizeStopEnd (appendBit s.smp.dat s.smp.idx s)))) ∨
    (s.count < 10 ∧ ¬ (s.count = 0 ∧ s.smp.dat = true) ∧
      sampleBit stay trail s = setPhase stay (appendBit s.smp.dat s.smp.idx s)) := by
  have key : ∀ c : Fin 16, 11 ≤ c → c ≠ 0 := by decide
  have key' : ∀ c : Fin 16, c < 10 → c + 1 ≠ 0 := by decide
  rcases capture_cases s.smp.dat s.smp.idx s with ⟨h, e⟩ | ⟨h, hd, e⟩ | ⟨h, e⟩ | ⟨h, hd, e⟩
  · exact .inl ⟨h, by simp [sampleBit, e, phaseAfterCapture, key _ h]⟩
  · exact .inr (.inl ⟨h, hd, by simp [sampleBit, e, phaseAfterCapture, h]⟩)
  · exact .inr (.inr (.inl ⟨h, by simp [sampleBit, e]⟩))
  · refine .inr (.inr (.inr ⟨h, hd, ?_⟩))
    simp [sampleBit, e, phaseAfterCapture, key' _ h]

/-! ### The transitions -/

/-- Every transition but `RSVD.PHASE` answers a next state. -/
theorem exec_answers (i : Instr) (s : State) :
    (∃ t, exec i s = .next t) ∨ ((∃ oh od clk dat, i = .rsvdPhase oh od clk dat) ∧ exec i s = .fault .unreachable) := by
  cases i <;> first
    | exact .inl ⟨_, rfl⟩
    | exact .inr ⟨⟨_, _, _, _, rfl⟩, rfl⟩

/-- A sampling transition leaves everything but phase, accumulator and output alone. -/
theorem sampleBit_frame (stay trail : Phase) (s : State) :
    sampleBit stay trail s =
      { s with
        phase := (sampleBit stay trail s).phase, count := (sampleBit stay trail s).count,
        bits := (sampleBit stay trail s).bits, out := (sampleBit stay trail s).out } := by
  rcases sampleBit_cases stay trail s with ⟨_, e⟩ | ⟨_, _, e⟩ | ⟨_, e⟩ | ⟨_, _, e⟩ <;> rw [e]
  · rfl
  · rfl
  · rw [appendBit_eq]; rfl
  · rw [appendBit_eq]; rfl

/-- The DtoH start leaves everything but direction, phase and accumulator alone. -/
theorem startDeviceToHost_frame (s : State) :
    startDeviceToHost s =
      { s with
        dir := .deviceToHost, phase := .dtohBit, count := (startDeviceToHost s).count,
        bits := (startDeviceToHost s).bits } := by
  unfold startDeviceToHost
  rw [capture_eq]
  rfl

/-- No transition touches the sample, the stream, the options, their inputs or the previous-level registers. -/
theorem exec_next_keeps {i : Instr} {s t : State} (h : exec i s = .next t) :
    t = { s with
      phase := t.phase, dir := t.dir, count := t.count, bits := t.bits, ackStart := t.ackStart, out := t.out } := by
  cases i <;> simp only [exec, execInit, execDetectH, execDetectDR, execDetectDF, execHbitR, execHbitF, execDbitR, execDbitF,
    execHtrail, execAcks, execAcke, execDtrail, execHold, execRsvdPhase, raise, Host.Outcome.next.injEq, reduceCtorEq] at h
  all_goals subst h
  all_goals first
    | rfl
    | (rw [startDeviceToHost_frame])
    | (rw [sampleBit_frame])

end Sys2Proof.Machine
end

