-- ==== Sys2Proof/Laws/PerInstr.lean ====
section
/-! SUPPORT. Per-instruction families: what holds of every transition as syntax, one lemma per constructor. -/

namespace Sys2Proof

/-- Apart from `HOLD`, the row of lowest priority, no two rows of the opcode map select one possible selector (R63). -/
theorem opcodeMap_rows_disjoint :
    ∀ n : Fin 1024, (unpackFields (BitVec.ofFin n)).impossible = false →
      (opcodeMap.dropLast.filter fun r => r.selects (BitVec.ofFin n)).length ≤ 1 := by
  decide +kernel

/-- No row fixes a bit that its mask leaves free. -/
theorem opcodeMap_patterns_under_masks : ∀ r ∈ opcodeMap, r.pattern &&& r.mask = r.pattern := by
  decide

end Sys2Proof

namespace Sys2Proof.Laws.FixedBits

/-- The selector of a well-formed transition has the fixed bits of the row of R63 with the transition's mnemonic. -/
def Statement (i : Instr) : Prop :=
  i.wellFormed = true → ∃ r ∈ opcodeMap, r.mnemonic = i.mnemonic ∧ encode i &&& r.mask = r.pattern

theorem init (oh od : EdgeOpt) : Statement (.init oh od) := by
  cases oh <;> cases od <;> (unfold Statement; decide)

theorem detectH (oh od : EdgeOpt) (dat : Edge) : Statement (.detectH oh od dat) := by
  cases oh <;> cases od <;> cases dat <;> (unfold Statement; decide)

theorem detectDR (oh od : EdgeOpt) (clk : Edge) : Statement (.detectDR oh od clk) := by
  cases oh <;> cases od <;> cases clk <;> (unfold Statement; decide)

theorem detectDF (oh od : EdgeOpt) (clk : Edge) : Statement (.detectDF oh od clk) := by
  cases oh <;> cases od <;> cases clk <;> (unfold Statement; decide)

theorem hbitR (od : EdgeOpt) (dat : Edge) : Statement (.hbitR od dat) := by
  cases od <;> cases dat <;> (unfold Statement; decide)

theorem hbitF (od : EdgeOpt) (dat : Edge) : Statement (.hbitF od dat) := by
  cases od <;> cases dat <;> (unfold Statement; decide)

theorem dbitR (oh : EdgeOpt) (dat : Edge) : Statement (.dbitR oh dat) := by
  cases oh <;> cases dat <;> (unfold Statement; decide)

theorem dbitF (oh : EdgeOpt) (dat : Edge) : Statement (.dbitF oh dat) := by
  cases oh <;> cases dat <;> (unfold Statement; decide)

theorem htrail (oh od : EdgeOpt) (dat : Edge) : Statement (.htrail oh od dat) := by
  cases oh <;> cases od <;> cases dat <;> (unfold Statement; decide)

theorem acks (oh od : EdgeOpt) (clk : Edge) : Statement (.acks oh od clk) := by
  cases oh <;> cases od <;> cases clk <;> (unfold Statement; decide)

theorem acke (oh od : EdgeOpt) (dat : Edge) : Statement (.acke oh od dat) := by
  cases oh <;> cases od <;> cases dat <;> (unfold Statement; decide)

theorem dtrail (oh od : EdgeOpt) (dat : Edge) : Statement (.dtrail oh od dat) := by
  cases oh <;> cases od <;> cases dat <;> (unfold Statement; decide)

theorem rsvdPhase (oh od : EdgeOpt) (clk dat : Edge) : Statement (.rsvdPhase oh od clk dat) := by
  cases oh <;> cases od <;> cases clk <;> cases dat <;> (unfold Statement; decide)

theorem hold (ph : Phase) (oh od : EdgeOpt) (clk dat : Edge) : Statement (.hold ph oh od clk dat) := by
  cases ph <;> cases oh <;> cases od <;> cases clk <;> cases dat <;> (unfold Statement; decide)

end Sys2Proof.Laws.FixedBits
end

