-- ==== Sys2Proof/Laws/Run.lean ====
section
/-! SUPPORT. Runs: how `Host.Core.run` unrolls, and induction over the steps of a run. -/

namespace Sys2Proof.Machine

theorem run_zero (s : State) : Sys2Proof.core.run 0 s = .next s := rfl

/-- A run whose first step answers a next state is the rest of the run from there. -/
theorem run_succ_of_next {M : Host.Core} {s t : M.State} (n : Nat) (h : M.step s = .next t) :
    M.run (n + 1) s = M.run n t := by
  rw [Host.Core.run, h]

/-- A run whose first step faults is that fault. -/
theorem run_succ_of_fault {M : Host.Core} {s : M.State} {f : M.Fault} (n : Nat) (h : M.step s = .fault f) :
    M.run (n + 1) s = .fault f := by
  rw [Host.Core.run, h]

/-- A run whose first step is refused is that refusal. -/
theorem run_succ_of_refused {M : Host.Core} {s : M.State} {r : M.Refusal} (n : Nat) (h : M.step s = .refused r) :
    M.run (n + 1) s = .refused r := by
  rw [Host.Core.run, h]

/-- What every step keeps, every run keeps. -/
theorem run_induction {P : State → Prop} (keeps : ∀ s t, P s → step s = .next t → P t) :
    ∀ (n : Nat) (s t : State), P s → Sys2Proof.core.run n s = .next t → P t
  | 0, s, t, hs, h => by
    have e : (Host.Outcome.next s : Host.Outcome State Fault Refusal) = .next t := h
    cases e
    exact hs
  | n + 1, s, t, hs, h => by
    cases e : step s with
    | next u =>
      exact run_induction keeps n u t (keeps s u hs e) ((run_succ_of_next (M := Sys2Proof.core) n e).symm.trans h)
    | fault f => cases (run_succ_of_fault (M := Sys2Proof.core) n e).symm.trans h
    | refused r => cases (run_succ_of_refused (M := Sys2Proof.core) n e).symm.trans h

end Sys2Proof.Machine
end

