-- ==== Sys2Proof/Tests/Slice0.lean ====
section
/-! SUPPORT. Tests: the well-formedness checks, decoding, single steps and operations against 95_test_vectors.md, and for every
statement with hypotheses a witness that meets them. -/

namespace Sys2Proof.Tests

open Sys2Proof Sys2Proof.Machine

/-! ### Helpers -/

/-- The next state of an outcome. -/
def nextState : Host.Outcome State Fault Refusal → Option State
  | .next t    => some t
  | .fault _   => none
  | .refused _ => none

/-- The fault of an outcome. -/
def faultOf : Host.Outcome State Fault Refusal → Option Fault
  | .next _    => none
  | .fault f   => some f
  | .refused _ => none

/-- A state in a run with the default options: phase, direction, previous clock and data level, last index, and the samples to
come. -/
def live (ph : Phase) (d : Direction) (c e : Level) (last : Nat) (samples : List Sample) : State :=
  { State.reset with
    phase := ph, dir := d, prevClk := c, prevDat := e, prevValid := true, lastIdx := last,
    input := samples.map .sample }

/-- The buffer whose first slots are the listed ones. -/
def slots (l : List Slot) : Vector (Option Slot) 11 := Vector.ofFn fun i => l[i.val]?

/-- `s` with the listed slots captured. -/
def holding (l : List Slot) (s : State) : State :=
  { s with count := Fin.ofNat 16 l.length, bits := slots l }

/-- Slots 0 to 9 of vector L2-A5. -/
def tenSlots : List Slot :=
  [⟨false, 10, 20⟩, ⟨true, 20, 30⟩, ⟨false, 30, 40⟩, ⟨true, 40, 50⟩, ⟨false, 50, 60⟩,
   ⟨true, 60, 70⟩, ⟨false, 70, 80⟩, ⟨true, 80, 90⟩, ⟨false, 90, 100⟩, ⟨true, 100, 100⟩]

/-- Slots 0 to 10 after the capture of vector L2-A5. -/
def elevenSlots : List Slot :=
  [⟨false, 10, 20⟩, ⟨true, 20, 30⟩, ⟨false, 30, 40⟩, ⟨true, 40, 50⟩, ⟨false, 50, 60⟩,
   ⟨true, 60, 70⟩, ⟨false, 70, 80⟩, ⟨true, 80, 90⟩, ⟨false, 90, 100⟩, ⟨true, 100, 110⟩, ⟨true, 110, 120⟩]

/-- Program P2 before sample 23: ten bits of 0xAA with parity 0. -/
def p2Slots : List Slot :=
  [⟨false, 3, 5⟩, ⟨false, 5, 7⟩, ⟨true, 7, 9⟩, ⟨false, 9, 11⟩, ⟨true, 11, 13⟩,
   ⟨false, 13, 15⟩, ⟨true, 15, 17⟩, ⟨false, 17, 19⟩, ⟨true, 19, 21⟩, ⟨false, 21, 21⟩]

/-- Program P1 before sample 21: ten bits of 0x41 with parity 1. -/
def p1Slots : List Slot :=
  [⟨false, 1, 3⟩, ⟨true, 3, 5⟩, ⟨false, 5, 7⟩, ⟨false, 7, 9⟩, ⟨false, 9, 11⟩,
   ⟨false, 11, 13⟩, ⟨false, 13, 15⟩, ⟨true, 15, 17⟩, ⟨false, 17, 19⟩, ⟨true, 19, 19⟩]

/-- Ten slots as a function, for the statements about the eleventh bit. -/
def tenBits (i : Fin 10) : Slot := tenSlots[i.val]!

/-- Eleven slots as a function. -/
def elevenBits (i : Fin 11) : Slot := elevenSlots[i.val]!

/-- Program P2 before sample 23, prev (0,1). -/
def p2BeforeStop (samples : List Sample) : State :=
  holding p2Slots (live .htodBit .hostToDevice false true 22 samples)

/-- Program P1 before sample 21, prev (1,1). -/
def p1BeforeStop (samples : List Sample) : State :=
  holding p1Slots (live .dtohBit .deviceToHost true true 20 samples)

/-- Program P2 before sample 28, prev (0,1). -/
def p2BeforeAck (samples : List Sample) : State :=
  { live .ackWaitClk .hostToDevice false true 27 samples with ackStart := 26 }

/-! ### WellFormed refuses ill-formed terms -/

theorem test_wf_detectDR_refuses_clock_fall : (Instr.detectDR .rise .fall .fall).wellFormed = false := by decide

theorem test_wf_detectDF_refuses_clock_fall : (Instr.detectDF .fall .rise .fall).wellFormed = false := by decide

theorem test_wf_hold_refuses_reserved_phase : (Instr.hold .reserved .rise .fall .none .none).wellFormed = false := by decide

theorem test_wf_hold_refuses_fired_detect :
    (Instr.hold .detect .rise .fall .fall .none).wellFormed = false ∧
    (Instr.hold .detect .rise .fall .none .rise).wellFormed = false ∧
    (Instr.hold .detect .rise .fall .none .fall).wellFormed = false := by decide

theorem test_wf_hold_refuses_fired_sampling :
    (Instr.hold .htodBit .rise .fall .rise .none).wellFormed = false ∧
    (Instr.hold .htodBit .fall .fall .fall .none).wellFormed = false ∧
    (Instr.hold .dtohBit .rise .rise .rise .none).wellFormed = false ∧
    (Instr.hold .dtohBit .rise .fall .fall .none).wellFormed = false := by decide

theorem test_wf_hold_refuses_fired_post_frame :
    (Instr.hold .htodTrail .rise .fall .rise .none).wellFormed = false ∧
    (Instr.hold .ackWaitData .rise .fall .none .rise).wellFormed = false ∧
    (Instr.hold .ackWaitClk .rise .fall .rise .none).wellFormed = false ∧
    (Instr.hold .dtohTrail .rise .fall .rise .none).wellFormed = false := by decide

theorem test_wf_accepts_unfired_hold :
    (Instr.hold .htodBit .rise .fall .fall .fall).wellFormed = true ∧
    (Instr.hold .ackWaitData .rise .fall .fall .none).wellFormed = true := by decide

/-! ### Decoding: PV PH OH OD CR CF DR DF written out bit by bit (R62), transitions named by 95_test_vectors.md -/

/-- P3, `0:00`, and S2, `0:11`. -/
theorem test_decode_init :
    decodeTableWord 16 0b0_000_0_0_0_0_0_0 = some (.init .rise .rise) ∧
    decodeTableWord 16 0b0_000_1_1_0_0_0_0 = some (.init .fall .fall) := by decide

/-- P1, `23:01` of P5, and D2's row (1,0) to `01`. -/
theorem test_decode_detectH :
    decodeTableWord 16 0b1_000_0_1_0_1_0_0 = some (.detectH .rise .fall .none) ∧
    decodeTableWord 16 0b1_000_0_1_0_1_1_0 = some (.detectH .rise .fall .rise) := by decide

/-- D2, rows (1,0) to `11` and P3's `1:01`. -/
theorem test_decode_detectDR :
    decodeTableWord 16 0b1_000_0_1_0_0_1_0 = some (.detectDR .rise .fall .none) ∧
    decodeTableWord 16 0b1_000_0_0_0_0_1_0 = some (.detectDR .rise .rise .none) := by decide

/-- P1's `1:10` and P3's `3:10`. -/
theorem test_decode_detectDF :
    decodeTableWord 16 0b1_000_0_1_0_0_0_1 = some (.detectDF .rise .fall .none) ∧
    decodeTableWord 16 0b1_000_0_0_0_0_0_1 = some (.detectDF .rise .rise .none) := by decide

/-- The row of R63 with the data line rising. -/
theorem test_decode_hbitR : decodeTableWord 16 0b1_001_0_0_1_0_1_0 = some (.hbitR .rise .rise) := by decide

/-- S2's `5:01`. -/
theorem test_decode_hbitF : decodeTableWord 16 0b1_001_1_1_0_1_0_0 = some (.hbitF .fall .none) := by decide

/-- The row of R63 with the HtoD option 1 and the data line falling. -/
theorem test_decode_dbitR : decodeTableWord 16 0b1_010_1_0_1_0_0_1 = some (.dbitR .fall .fall) := by decide

/-- The row of R63 with the HtoD option 1 and the data line rising. -/
theorem test_decode_dbitF : decodeTableWord 16 0b1_010_1_1_0_1_1_0 = some (.dbitF .fall .rise) := by decide

/-- P2's `25:10`. -/
theorem test_decode_htrail : decodeTableWord 16 0b1_011_0_1_1_0_0_0 = some (.htrail .rise .fall .none) := by decide

/-- P2's `26:11`. -/
theorem test_decode_acks : decodeTableWord 16 0b1_100_0_1_0_0_1_0 = some (.acks .rise .fall .none) := by decide

/-- The row of R63 with both options 1 and the data line falling. -/
theorem test_decode_acke : decodeTableWord 16 0b1_101_1_1_1_0_0_1 = some (.acke .fall .fall .fall) := by decide

/-- P1's `22:11` and F5's. -/
theorem test_decode_dtrail :
    decodeTableWord 16 0b1_110_0_1_1_0_0_0 = some (.dtrail .rise .fall .none) ∧
    decodeTableWord 16 0b1_110_0_1_1_0_1_0 = some (.dtrail .rise .fall .rise) := by decide

/-- The row of R63. -/
theorem test_decode_rsvdPhase : decodeTableWord 16 0b1_111_0_1_0_1_1_0 = some (.rsvdPhase .rise .fall .fall .rise) := by decide

/-- H1's `0x254` and P2's `0x2d5`. -/
theorem test_decode_hold :
    decodeTableWord 16 0b1_001_0_1_0_1_0_0 = some (.hold .htodBit .rise .fall .fall .none) ∧
    decodeTableWord 16 0b1_011_0_1_0_1_0_1 = some (.hold .htodTrail .rise .fall .fall .fall) := by decide

/-- R64: both data bits set, `PV = 0` with an edge bit, `PV = 0` outside `DETECT`; and a word above bit 9 is no selector. -/
theorem test_decode_refuses :
    decodeTableWord 16 0b1_000_0_1_0_0_1_1 = none ∧ decodeTableWord 16 0b0_000_0_1_1_0_0_0 = none ∧
    decodeTableWord 16 0b0_111_0_0_0_0_0_0 = none ∧ decodeTableWord 16 0x400 = none := by decide

/-- How many selectors satisfy a test. -/
def countSelectors (p : DecodeResult → Bool) : Nat :=
  ((List.range 1024).filter fun n => p (decode (BitVec.ofNat 10 n))).length

/-- Whether a selector decodes to a transition with this mnemonic. -/
def named (m : String) (r : DecodeResult) : Bool :=
  match r with
  | .instr i  => i.mnemonic == m
  | .reject _ => false

/-- Vector L2-H4: the census of all 1024 selectors. -/
theorem test_selector_census :
    countSelectors (· == .reject .impossible) = 704 ∧ countSelectors (· == .reject .unreachable) = 28 ∧
    ["INIT", "DETECT.H", "DETECT.DR", "DETECT.DF", "HBIT.R", "HBIT.F", "DBIT.R", "DBIT.F", "HTRAIL", "ACKS", "ACKE", "DTRAIL",
      "RSVD.PHASE", "HOLD"].map (fun m => countSelectors (named m))
      = [4, 12, 8, 8, 6, 6, 6, 6, 12, 12, 12, 12, 36, 152] := by decide +kernel

/-! ### One step, against 95_test_vectors.md -/

/-- L2-D1. -/
theorem test_init_loads_levels_only :
    (nextState (step { State.reset with input := [.sample ⟨0, false, false⟩] })).map
        (fun t => (t.phase, t.prevClk, t.prevDat, t.prevValid, t.count))
      = some (.detect, false, false, true, 0) := by decide

/-- L2-D2, row (1,1) to `00`: the data edge is ignored. -/
theorem test_detectH_wins_over_data_edge :
    (nextState (step (live .detect .idle true true 0 [⟨1, false, false⟩]))).map (fun t => (t.phase, t.dir, t.count))
      = some (.htodBit, .hostToDevice, 0) := by decide

/-- L2-D2, row (0,0) to `11`: the data 1 is discarded. -/
theorem test_detectDR_discards_one :
    (nextState (step (live .detect .idle false false 0 [⟨1, true, true⟩]))).map (fun t => (t.phase, t.dir, t.count))
      = some (.dtohBit, .deviceToHost, 0) := by decide

/-- L2-D2, row (0,1) to `10`: a clock rising edge does not block the DtoH start. -/
theorem test_detectDF_captures_start_bit :
    (nextState (step (live .detect .idle false true 0 [⟨1, true, false⟩]))).map (fun t => (t.phase, t.dir, t.count, t.bits))
      = some (.dtohBit, .deviceToHost, 1, slots [⟨false, 1, 1⟩]) := by decide

/-- L1-4, sample `2:11`: data 1 at `count = 0` goes back to `DETECT`; the direction stays (R118). -/
theorem test_hbitR_discards_idle_sample :
    (nextState (step (live .htodBit .hostToDevice false true 1 [⟨2, true, true⟩]))).map (fun t => (t.phase, t.dir, t.count))
      = some (.detect, .hostToDevice, 0) := by decide

/-- P2, sample `23:11`: the 15 records and their text (R65). -/
theorem test_hbitR_completes_p2_frame :
    (nextState (step (p2BeforeStop [⟨23, true, true⟩]))).map (fun t => (t.phase, t.count, t.bits, t.out.map recordText))
      = some (.htodTrail, 0, slots [],
        ["bit[3,5)=0", "bit[5,7)=0", "bit[7,9)=1", "bit[9,11)=0", "bit[11,13)=1", "bit[13,15)=0", "bit[15,17)=1",
         "bit[17,19)=0", "bit[19,21)=1", "bit[21,23)=0", "bit[23,25)=1", "start-bit[3,5)=0", "word[5,21)=aa",
         "parity-err[21,23)=0", "stop-bit[23,25)=1"]) := by decide +kernel

/-- L2-S2, sample `5:01`, with the HtoD option `fall`. -/
theorem test_hbitF_second_bit :
    (nextState (step { holding [⟨false, 3, 3⟩] (live .htodBit .hostToDevice true true 4 [⟨5, false, true⟩]) with
        optHtodEdge := .fall })).map (fun t => (t.phase, t.count, t.bits))
      = some (.htodBit, 2, slots [⟨false, 3, 5⟩, ⟨true, 5, 5⟩]) := by decide

/-- L2-S2, sample `4:11`: a clock rise is not the HtoD edge when the option is `fall`. -/
theorem test_hbitF_needs_falling_edge :
    (nextState (step { holding [⟨false, 3, 3⟩] (live .htodBit .hostToDevice false false 3 [⟨4, true, true⟩]) with
        optHtodEdge := .fall })).map (fun t => (t.phase, t.count, t.bits, t.prevClk, t.lastIdx))
      = some (.htodBit, 1, slots [⟨false, 3, 3⟩], true, 4) := by decide

/-- P3, sample `5:10`, with the DtoH option `rise`. -/
theorem test_dbitR_second_bit :
    (nextState (step { holding [⟨false, 3, 3⟩] (live .dtohBit .deviceToHost false false 4 [⟨5, true, false⟩]) with
        optDtohEdge := .rise })).map (fun t => (t.phase, t.count, t.bits))
      = some (.dtohBit, 2, slots [⟨false, 3, 5⟩, ⟨false, 5, 5⟩]) := by decide

/-- P1, sample `21:01`. -/
theorem test_dbitF_completes_p1_frame :
    (nextState (step (p1BeforeStop [⟨21, false, true⟩]))).map (fun t => (t.phase, t.count, t.dir, t.out.map recordText))
      = some (.dtohTrail, 0, .deviceToHost,
        ["bit[1,3)=0", "bit[3,5)=1", "bit[5,7)=0", "bit[7,9)=0", "bit[9,11)=0", "bit[11,13)=0", "bit[13,15)=0",
         "bit[15,17)=1", "bit[17,19)=0", "bit[19,21)=1", "bit[21,23)=1", "start-bit[1,3)=0", "word[3,19)=41",
         "parity-ok[19,21)=1", "stop-bit[21,23)=1"]) := by decide +kernel

/-- L2-S4, sample `2:01`: the direction goes stale (R118). -/
theorem test_dbitF_discards_idle_sample :
    (nextState (step (live .dtohBit .deviceToHost true true 1 [⟨2, false, true⟩]))).map (fun t => (t.phase, t.dir, t.count))
      = some (.detect, .deviceToHost, 0) := by decide

/-- L2-P2, sample `25:11`: the data rise on the trailing edge's sample is not seen. -/
theorem test_htrail_ignores_data_rise :
    (nextState (step (live .htodTrail .hostToDevice false false 24 [⟨25, true, true⟩]))).map
        (fun t => (t.phase, t.ackStart, t.count))
      = some (.ackWaitData, 0, 0) := by decide

/-- P2, sample `26:11`. -/
theorem test_acks_records_start :
    (nextState (step (live .ackWaitData .hostToDevice true false 25 [⟨26, true, true⟩]))).map (fun t => (t.phase, t.ackStart))
      = some (.ackWaitClk, 26) := by decide

/-- P2, sample `28:11`. -/
theorem test_acke_emits_ack :
    (nextState (step (p2BeforeAck [⟨28, true, true⟩]))).map (fun t => (t.phase, t.dir, t.ackStart, t.out.map recordText))
      = some (.detect, .idle, 26, ["ack[26,28)=0"]) := by decide +kernel

/-- P1, sample `22:11`. -/
theorem test_dtrail_returns_to_detect :
    (nextState (step (live .dtohTrail .deviceToHost false true 21 [⟨22, true, true⟩]))).map
        (fun t => (t.phase, t.dir, t.lastIdx, t.out))
      = some (.detect, .idle, 22, []) := by decide

/-- L2-H1: a falling clock edge in `HTOD_BIT` with the option `rise`. -/
theorem test_hold_loads_levels_only :
    nextState (step (live .htodBit .hostToDevice true false 3 [⟨4, false, false⟩]))
      = some { live .htodBit .hostToDevice false false 4 [] with smp := ⟨4, false, false⟩ } := by decide

/-- L2-H2. -/
theorem test_input_order_fault : faultOf (step (live .detect .idle true true 0 [⟨0, true, false⟩])) = some .inputOrder := by
  decide

/-- L2-H3: the three hand-built states. -/
theorem test_unreachable_faults :
    faultOf (step (live .reserved .idle true true 0 [⟨1, true, true⟩])) = some .unreachable ∧
    faultOf (step (live .detect .reserved true true 0 [⟨1, true, true⟩])) = some .unreachable ∧
    faultOf (step { State.reset with phase := .htodBit, input := [.sample ⟨1, true, true⟩] }) = some .unreachable := by decide

/-- R136: the order check comes first. -/
theorem test_input_order_before_unreachable :
    faultOf (step (live .reserved .reserved true true 5 [⟨5, true, true⟩])) = some .inputOrder := by decide

/-- R150 to R152: a reset in the middle of a frame drops it, latches the inputs and keeps the records. -/
theorem test_reset_event :
    nextState (step { p2BeforeStop [] with
        input := [.reset], cfgHtodEdge := .fall, cfgDtohEdge := .rise, out := [⟨.ack, 1, 2, 0#8⟩] })
      = some { State.reset with
        optHtodEdge := .fall, optDtohEdge := .rise, cfgHtodEdge := .fall, cfgDtohEdge := .rise, out := [⟨.ack, 1, 2, 0#8⟩] } := by
  decide

/-- `DBIT.R` with the data line rising (`0x28a`), placed as the first step after reset, samples data 1 at `count = 0`. -/
theorem test_with_fetch_word_runs_dbitR :
    (nextState (step (State.withFetchWord State.reset 16 0b1_010_0_0_1_0_1_0))).map (fun t => (t.phase, t.prevClk, t.prevDat))
      = some (.detect, true, true) := by decide

/-! ### Operations -/

/-- L2-A1 and L2-A2. -/
theorem test_capture_first_bit :
    capture true 5 State.reset = (.needMoreBits, State.reset) ∧
    capture false 5 State.reset = (.needMoreBits, holding [⟨false, 5, 5⟩] State.reset) := by decide

/-- L2-A4: a 1 is kept when a bit has been captured, and the previous slot's end is fixed up. -/
theorem test_capture_fixes_previous_end :
    capture true 20 (holding [⟨false, 10, 10⟩] State.reset)
      = (.needMoreBits, holding [⟨false, 10, 20⟩, ⟨true, 20, 20⟩] State.reset) := by decide

/-- L2-A5: the eleventh bit and the stop-end synthesis. -/
theorem test_capture_completes_frame :
    capture true 110 (holding tenSlots State.reset) = (.frameComplete, holding elevenSlots State.reset) := by decide

/-- L2-A6. -/
theorem test_capture_full_buffer :
    capture false 40 (holding elevenSlots State.reset) = (.needMoreBits, holding elevenSlots State.reset) := by decide

/-- Continuing L2-A5: `Finalize`. -/
theorem test_finalize :
    (finalize (holding elevenSlots State.reset)).out.map recordText
      = ["bit[10,20)=0", "bit[20,30)=1", "bit[30,40)=0", "bit[40,50)=1", "bit[50,60)=0", "bit[60,70)=1", "bit[70,80)=0",
         "bit[80,90)=1", "bit[90,100)=0", "bit[100,110)=1", "bit[110,120)=1", "start-bit[10,20)=0", "word[20,100)=55",
         "parity-ok[100,110)=1", "stop-bit[110,120)=1"] := by decide +kernel

/-- L1-3 and L2-F1. -/
theorem test_parity_table :
    [(0x00#8, true), (0xff#8, true), (0xff#8, false), (0x00#8, false), (0x01#8, false), (0x80#8, false), (0x41#8, true),
     (0x41#8, false), (0xaa#8, false), (0xaa#8, true), (0x7f#8, true), (0x7f#8, false)].map (fun x => parityOk x.1 x.2)
      = [true, true, false, false, true, true, true, false, false, true, false, true] := by decide

/-- L2-F2: slots 1 to 8, slot 1 first; slot 0 is the start bit. -/
theorem test_word_assembly :
    [[true, false, false, false, false, false, false, false], [false, false, false, false, false, false, false, true],
     [true, false, false, false, false, false, true, false], [false, true, false, true, false, true, false, true],
     [true, true, false, false, true, false, true, false], [false, true, false, false, false, false, false, true]].map
        (fun l => assembleWord (holding ((false :: l).map fun v => ⟨v, 0, 0⟩) State.reset))
      = [0x01#8, 0x80#8, 0x41#8, 0xaa#8, 0x53#8, 0x82#8] := by decide

/-- L1-8. -/
theorem test_word_labels :
    wordLabels 0x1a#8 = ["Data: 1a", "D: 1a", "1a"] ∧ wordLabels 0x05#8 = ["Data: 05", "D: 05", "05"] ∧
    wordLabels 0xaa#8 = ["Data: aa", "D: aa", "aa"] ∧ wordLabels 0x00#8 = ["Data: 00", "D: 00", "00"] := by decide +kernel

/-- R9 and R65: a transition's text. -/
theorem test_transition_text :
    transitionText (.dbitF .rise .none) ⟨103, false, true⟩ = "DBIT.F 103:01" := by decide +kernel

/-! ### Witnesses: for every statement with hypotheses, concrete inputs that meet them all, clause by clause -/

/-- The stop bit's sample for the state `tenHtod`. -/
def stopRise : Sample := ⟨110, true, true⟩

/-- The stop bit's sample for the state `tenDtoh`. -/
def stopFall : Sample := ⟨110, false, true⟩

/-- Ten captured bits in the HtoD sampling phase, and the sample of the eleventh. -/
def tenHtod : State := holding tenSlots (live .htodBit .hostToDevice false true 105 [stopRise])

/-- Ten captured bits in the DtoH sampling phase, and the sample of the eleventh. -/
def tenDtoh : State := holding tenSlots (live .dtohBit .deviceToHost true true 105 [stopFall])

/-- A started ACK, the frame's stop bit and, at 28, the sample that ends the ACK. -/
def ackPending : State :=
  { p2BeforeAck [⟨28, true, true⟩] with out := [⟨.stopBit, 23, 25, 1#8⟩] }

theorem witness_decode_of_encode :
    [Instr.init .rise .fall, .detectH .rise .fall .fall, .detectDR .rise .fall .rise, .detectDF .rise .fall .none,
     .hbitR .fall .rise, .hbitF .fall .fall, .dbitR .rise .none, .dbitF .rise .none, .htrail .rise .fall .rise,
     .acks .rise .fall .rise, .acke .rise .fall .none, .dtrail .rise .rise .none, .rsvdPhase .rise .fall .rise .fall,
     .hold .detect .rise .fall .rise .none].map Instr.wellFormed = List.replicate 14 true := by decide

theorem witness_encode_of_decode : decode 0x215#10 = .instr (.detectH .rise .fall .fall) := by decide

theorem witness_selector_layout_before_first_sample : State.reset.prevValid = false := by decide

theorem witness_selection_live : tenHtod.prevValid = true := by decide

theorem witness_selection_init : State.reset.prevValid = false ∧ State.reset.phase = .detect := by decide

/-- The next index is the least that R72 accepts. -/
theorem witness_accepts_at_boundary :
    let s := live .detect .idle true true 5 [⟨6, false, true⟩]
    s.input = .sample ⟨6, false, true⟩ :: [] ∧ Accepts s ⟨6, false, true⟩ := by
  exact ⟨rfl, by constructor <;> decide⟩

/-- The greatest index that R72 refuses. -/
theorem witness_input_order_at_boundary :
    let s := live .detect .idle true true 5 [⟨5, false, true⟩]
    s.input = .sample ⟨5, false, true⟩ :: [] ∧ s.prevValid = true ∧ 5 ≤ s.lastIdx := by
  exact ⟨rfl, by decide, by decide⟩

theorem witness_unreachable_states :
    (let s := live .reserved .idle true true 5 [⟨6, false, true⟩]
     s.input = .sample ⟨6, false, true⟩ :: [] ∧ (s.prevValid = true → s.lastIdx < 6) ∧ s.phase = .reserved) ∧
    (let s := live .detect .reserved true true 5 [⟨6, false, true⟩]
     s.input = .sample ⟨6, false, true⟩ :: [] ∧ (s.prevValid = true → s.lastIdx < 6) ∧ s.dir = .reserved) ∧
    (let s := { State.reset with phase := .dtohTrail, input := [.sample ⟨0, false, true⟩] }
     s.input = .sample ⟨0, false, true⟩ :: [] ∧ (s.prevValid = true → s.lastIdx < 0) ∧ s.prevValid = false ∧
      s.phase ≠ .detect) := by
  exact ⟨⟨rfl, by decide, by decide⟩, ⟨rfl, by decide, by decide⟩, rfl, by decide, by decide, by decide⟩

theorem witness_first_sample :
    let s := { State.reset with input := [.sample ⟨0, false, false⟩] }
    s.input = .sample ⟨0, false, false⟩ :: [] ∧ Accepts s ⟨0, false, false⟩ ∧ s.prevValid = false := by
  exact ⟨rfl, by constructor <;> decide, by decide⟩

theorem witness_hold :
    let s := live .ackWaitData .hostToDevice false true 5 [⟨6, true, false⟩]
    s.input = .sample ⟨6, true, false⟩ :: [] ∧ Accepts s ⟨6, true, false⟩ ∧ s.prevValid = true ∧
      s.phase.fires s.optHtodEdge s.optDtohEdge (edgeBetween s.prevClk true) (edgeBetween s.prevDat false) = false := by
  exact ⟨rfl, by constructor <;> decide, by decide, by decide⟩

/-- Clock and data fall together; clock and data rise together; the clock rises and data falls. -/
theorem witness_detection_priority :
    (let s := live .detect .idle true true 5 [⟨6, false, false⟩]
     s.input = .sample ⟨6, false, false⟩ :: [] ∧ Accepts s ⟨6, false, false⟩ ∧ s.prevValid = true ∧ s.phase = .detect ∧
      s.count = 0 ∧ s.prevClk = true) ∧
    (let s := live .detect .deviceToHost false false 5 [⟨6, true, true⟩]
     s.input = .sample ⟨6, true, true⟩ :: [] ∧ Accepts s ⟨6, true, true⟩ ∧ s.prevValid = true ∧ s.phase = .detect ∧
      s.count = 0 ∧ s.prevClk = false ∧ s.prevDat = false) ∧
    (let s := live .detect .hostToDevice false true 5 [⟨6, true, false⟩]
     s.input = .sample ⟨6, true, false⟩ :: [] ∧ Accepts s ⟨6, true, false⟩ ∧ s.prevValid = true ∧ s.phase = .detect ∧
      s.count = 0 ∧ s.prevClk = false ∧ s.prevDat = true) := by
  exact ⟨⟨rfl, by constructor <;> decide, by decide, by decide, by decide, by decide⟩,
    ⟨rfl, by constructor <;> decide, by decide, by decide, by decide, by decide, by decide⟩,
    rfl, by constructor <;> decide, by decide, by decide, by decide, by decide, by decide⟩

/-- Both directions, each with both values of its option and both data levels. -/
theorem witness_first_sampling_edge :
    (∀ e v : Bool, let o := if e then EdgeOpt.rise else .fall
      let s := { live .htodBit .hostToDevice (!e) false 5 [⟨6, e, v⟩] with optHtodEdge := o }
      s.input = .sample ⟨6, e, v⟩ :: [] ∧ Accepts s ⟨6, e, v⟩ ∧ s.prevValid = true ∧ s.count = 0 ∧ s.phase = .htodBit ∧
        edgeBetween s.prevClk e = s.optHtodEdge.edge) ∧
    (∀ e v : Bool, let o := if e then EdgeOpt.rise else .fall
      let s := { live .dtohBit .deviceToHost (!e) true 5 [⟨6, e, v⟩] with optDtohEdge := o }
      s.input = .sample ⟨6, e, v⟩ :: [] ∧ Accepts s ⟨6, e, v⟩ ∧ s.prevValid = true ∧ s.count = 0 ∧ s.phase = .dtohBit ∧
        edgeBetween s.prevClk e = s.optDtohEdge.edge) := by
  constructor <;> intro e v <;> cases e <;> cases v
  all_goals exact ⟨rfl, by constructor <;> decide, by decide, by decide, by decide, by decide⟩

theorem witness_htod_trail :
    let s := live .htodTrail .hostToDevice false false 5 [⟨6, true, true⟩]
    s.input = .sample ⟨6, true, true⟩ :: [] ∧ Accepts s ⟨6, true, true⟩ ∧ s.prevValid = true ∧ s.phase = .htodTrail ∧
      s.prevClk = false := by
  exact ⟨rfl, by constructor <;> decide, by decide, by decide, by decide⟩

theorem witness_ack_start :
    let s := live .ackWaitData .hostToDevice false false 5 [⟨6, true, true⟩]
    s.input = .sample ⟨6, true, true⟩ :: [] ∧ Accepts s ⟨6, true, true⟩ ∧ s.prevValid = true ∧ s.phase = .ackWaitData ∧
      s.prevDat = false := by
  exact ⟨rfl, by constructor <;> decide, by decide, by decide, by decide⟩

theorem witness_ack_end :
    ackPending.input = .sample ⟨28, true, true⟩ :: [] ∧ Accepts ackPending ⟨28, true, true⟩ ∧ ackPending.prevValid = true ∧
      ackPending.phase = .ackWaitClk ∧ ackPending.prevClk = false ∧ Invariant ackPending := by
  exact ⟨rfl, by constructor <;> decide, by decide, by decide, by decide,
    ⟨by constructor <;> decide, by decide, by decide, by decide⟩⟩

theorem witness_dtoh_trail :
    let s := { live .dtohTrail .deviceToHost false true 5 [⟨6, true, false⟩] with optDtohEdge := .fall }
    s.input = .sample ⟨6, true, false⟩ :: [] ∧ Accepts s ⟨6, true, false⟩ ∧ s.prevValid = true ∧ s.phase = .dtohTrail ∧
      s.prevClk = false := by
  exact ⟨rfl, by constructor <;> decide, by decide, by decide, by decide⟩

/-- The start of a DtoH frame, with either data level. -/
theorem witness_dtoh_detection :
    State.reset.count = 0 ∧ State.reset.smp.dat = false ∧ ({ State.reset with smp := ⟨1, true, true⟩ } : State).smp.dat = true := by
  decide

/-- The clauses of the sampling and capture statements: an idle sample; counts 0, 1 and 9 with their occupied slots; ten slots
as `tenBits`; the full buffer and the greatest code of the count. -/
theorem witness_sampling :
    (State.reset.count = 0 ∧ ({ State.reset with smp := ⟨1, true, true⟩ } : State).smp.dat = true) ∧
    (State.reset.count < 10 ∧ State.reset.smp.dat = false ∧ Occupied State.reset State.reset.count.val) ∧
    (let s := holding [⟨false, 1, 1⟩] State.reset
     s.count < 10 ∧ s.count ≠ 0 ∧ Occupied s s.count.val) ∧
    (let s := holding (tenSlots.take 9) State.reset
     s.count < 10 ∧ s.count ≠ 0 ∧ Occupied s s.count.val) ∧
    (tenHtod.count = 10 ∧ (∀ i : Fin 10, tenHtod.bits[i.val] = some (tenBits i)) ∧ (tenBits 1).endIdx ≤ (tenBits 2).endIdx) ∧
    (10 < (holding elevenSlots State.reset).count ∧ 10 < ({ State.reset with count := 15 } : State).count) := by
  unfold Occupied
  decide

/-- Eleven occupied slots, for `Finalize` and for the word and parity statement. -/
theorem witness_finalize : ∀ i : Fin 11, (holding elevenSlots State.reset).bits[i] = some (elevenBits i) := by decide

theorem witness_eleven_captures :
    let k : Fin 11 → Nat := fun n => 2 * n.val + 1
    State.reset.count = 0 ∧ ∀ i j : Fin 11, i < j → k i < k j := by
  decide

theorem witness_reset_event : ({ tenHtod with input := [.reset] } : State).input = .reset :: [] := by decide

/-- A sample, a reset and a change of the configuration inputs, each answered by a next state. -/
theorem witness_options :
    (∃ t, step tenHtod = .next t ∧ ∀ rest, tenHtod.input ≠ .reset :: rest) ∧
    (let s := { tenHtod with input := [.reset] }; ∃ t, step s = .next t ∧ s.input = .reset :: []) ∧
    (let s := { tenHtod with input := [.config .fall .rise] }; ∃ t, step s = .next t ∧ s.input = .config .fall .rise :: []) := by
  exact ⟨⟨_, rfl, fun _ h => by cases h⟩, ⟨_, rfl, rfl⟩, ⟨_, rfl, rfl⟩⟩

theorem witness_end_of_stream : State.reset.input = [] := by decide

/-- A step that completes a frame from ten slots given as a function, for the payloads of R59. -/
theorem witness_record_payloads :
    ∃ t, step tenHtod = .next t ∧ tenHtod.input = .sample stopRise :: [] ∧ tenHtod.count = 10 ∧
      (∀ i : Fin 10, tenHtod.bits[i.val] = some (tenBits i)) ∧ t.count = 0 := by
  exact ⟨_, rfl, rfl, by decide, by decide, by decide⟩

/-- A step and a phase other than the one it starts from: the eleventh bit, and a sample that holds the phase. -/
theorem witness_phase_moves :
    (∃ t, step tenHtod = .next t ∧ tenHtod.input = .sample stopRise :: [] ∧ Phase.htodTrail ≠ tenHtod.phase) ∧
    (let s := live .ackWaitClk .hostToDevice true true 5 [⟨6, false, false⟩]
     ∃ t, step s = .next t ∧ s.input = .sample ⟨6, false, false⟩ :: [] ∧ Phase.detect ≠ s.phase) := by
  exact ⟨⟨_, rfl, rfl, by decide⟩, _, rfl, rfl, by decide⟩

/-- States of the invariant in the middle of a frame, in the ACK, and before the first sample of a run. -/
theorem witness_every_phase_can_be_left : Invariant tenDtoh ∧ Invariant ackPending ∧ Invariant State.reset := by
  refine ⟨?_, ?_, ?_⟩
  all_goals exact ⟨by constructor <;> decide, by decide, by decide, by decide⟩

/-- A step that completes a frame, a step that emits an `ack`, and a reset of a ten-bit accumulator, which emits nothing. -/
theorem witness_records_per_step :
    (∃ t, step tenHtod = .next t ∧ (∃ x rest, tenHtod.input = .sample x :: rest) ∧ tenHtod.count = 10 ∧ t.count = 0) ∧
    (∃ t, step ackPending = .next t ∧ ackPending.count ≠ 10) ∧
    (let s := { tenHtod with input := [.reset] }
     ∃ t, step s = .next t ∧ ¬ ∃ x rest, s.input = .sample x :: rest) := by
  exact ⟨⟨_, rfl, ⟨_, _, rfl⟩, by decide, by decide⟩, ⟨_, rfl, by decide⟩, ⟨_, rfl, fun ⟨_, _, h⟩ => by cases h⟩⟩

/-- A step on a sample that changes `ack_start`, steps that change the direction, and a step that changes the phase. -/
theorem witness_writers_and_moves :
    (let s := live .ackWaitData .hostToDevice true false 5 [⟨6, true, true⟩]
     s.input = .sample ⟨6, true, true⟩ :: [] ∧ ∃ t, step s = .next t ∧ t.ackStart ≠ s.ackStart) ∧
    (let s := live .detect .idle true true 5 [⟨6, false, true⟩]
     s.input = .sample ⟨6, false, true⟩ :: [] ∧ ∃ t, step s = .next t ∧ t.dir ≠ s.dir ∧ t.phase ≠ s.phase) ∧
    (ackPending.input = .sample ⟨28, true, true⟩ :: [] ∧
      ∃ t, step ackPending = .next t ∧ t.dir ≠ ackPending.dir ∧ t.phase ≠ ackPending.phase) := by
  exact ⟨⟨rfl, _, rfl, by decide⟩, ⟨rfl, _, rfl, by decide, by decide⟩, rfl, _, rfl, by decide, by decide⟩

/-- The end of a post-frame sequence in both directions. -/
theorem witness_post_frame_ends :
    (Invariant ackPending ∧ ackPending.input = .sample ⟨28, true, true⟩ :: [] ∧ ackPending.phase = .ackWaitClk ∧
      ∃ t, step ackPending = .next t ∧ t.phase ≠ ackPending.phase) ∧
    (let s := live .dtohTrail .deviceToHost false true 5 [⟨6, true, true⟩]
     Invariant s ∧ s.input = .sample ⟨6, true, true⟩ :: [] ∧ s.phase = .dtohTrail ∧
      ∃ t, step s = .next t ∧ t.phase ≠ s.phase) := by
  exact ⟨⟨⟨by constructor <;> decide, by decide, by decide, by decide⟩, rfl, rfl, _, rfl, by decide⟩,
    ⟨by constructor <;> decide, by decide, by decide, by decide⟩, rfl, rfl, _, rfl, by decide⟩

/-- A state of the invariant in the middle of a frame, on a sample, a reset and an empty stream; and one in the ACK. -/
theorem witness_step_keeps_invariant :
    (Invariant tenHtod ∧ ∃ t, step tenHtod = .next t) ∧ (Invariant tenDtoh ∧ ∃ t, step tenDtoh = .next t) ∧
    (let s := { tenHtod with input := [.reset] }; Invariant s ∧ ∃ t, step s = .next t) ∧
    (let s := { tenHtod with input := [] }; Invariant s ∧ ∃ t, step s = .next t) ∧
    (Invariant ackPending ∧ ∃ t, step ackPending = .next t) := by
  refine ⟨⟨?_, _, rfl⟩, ⟨?_, _, rfl⟩, ⟨?_, _, rfl⟩, ⟨?_, _, rfl⟩, ?_, _, rfl⟩
  all_goals exact ⟨by constructor <;> decide, by decide, by decide, by decide⟩

/-- Program P4's trace reaches three captured bits in a run from reset. -/
theorem witness_run_from_reset :
    let stream := [⟨0, true, true⟩, ⟨1, false, false⟩, ⟨2, true, false⟩, ⟨3, false, true⟩, ⟨4, true, true⟩, ⟨5, false, false⟩,
      ⟨6, true, false⟩].map Input.sample
    ∃ t, Sys2Proof.core.run 7 { State.reset with optHtodEdge := .rise, optDtohEdge := .fall, input := stream } = .next t ∧
      t.count = 3 ∧ t.bits = slots [⟨false, 2, 4⟩, ⟨true, 4, 6⟩, ⟨false, 6, 6⟩] := by
  exact ⟨_, rfl, by decide, by decide⟩

/-- A stream with a reset after which the indices start again from 0. -/
theorem witness_stream_in_order :
    let s := { tenHtod with
      input := [.sample ⟨106, true, true⟩, .config .fall .fall, .sample ⟨107, false, true⟩, .reset, .sample ⟨0, true, true⟩,
        .sample ⟨1, true, true⟩] }
    Invariant s ∧ StreamInOrder (lastSample s) s.input := by
  exact ⟨⟨by constructor <;> decide, by decide, by decide, by decide⟩, by simp [StreamInOrder, lastSample, tenHtod, holding, live]⟩

theorem witness_frame_spans :
    Invariant tenDtoh ∧ ∃ t l, step tenDtoh = .next t ∧ t.out = tenDtoh.out ++ l ∧ l.length = 15 := by
  exact ⟨⟨by constructor <;> decide, by decide, by decide, by decide⟩, _, _, rfl, rfl, rfl⟩

/-- A frame's stop bit is out and its `ack` comes next; and a second frame is completed after an earlier group. -/
theorem witness_groups_in_order :
    (Invariant ackPending ∧ OutputBehind ackPending ∧ ackPending.input = .sample ⟨28, true, true⟩ :: [] ∧
      ∃ t, step ackPending = .next t) ∧
    (let s := { tenHtod with out := [⟨.ack, 7, 9, 0#8⟩] }
     Invariant s ∧ OutputBehind s ∧ s.input = .sample stopRise :: [] ∧ ∃ t, step s = .next t) := by
  exact ⟨⟨⟨by constructor <;> decide, by decide, by decide, by decide⟩, by constructor <;> decide, rfl, _, rfl⟩,
    ⟨by constructor <;> decide, by decide, by decide, by decide⟩, by constructor <;> decide, rfl, _, rfl⟩

theorem witness_direction_unobservable : tenHtod.dir ≠ .reserved ∧ Direction.idle ≠ .reserved := by decide

theorem witness_unset_registers_unread :
    let s := { State.reset with input := [.sample ⟨0, false, false⟩] }
    s.input = .sample ⟨0, false, false⟩ :: [] ∧ s.prevValid = false := by
  decide

end Sys2Proof.Tests
end

section
/-! Proofs of the statements about the state (10_state.md). A step on a sample is one move and the wrapper's load, said once in
`step_sample_iff`; the writers of the registers, the moves between phases and the invariant of R32 are read off the moves. -/

namespace Sys2Proof

/-- A well-formed transition is what its own selector decodes to (R63). -/
theorem decode_encode (i : Instr) (h : i.wellFormed = true) : decode (encode i) = .instr i := by
  cases i with
  | init oh od => cases oh <;> cases od <;> rfl
  | detectH oh od dat => cases oh <;> cases od <;> cases dat <;> rfl
  | detectDR oh od clk | detectDF oh od clk =>
    cases clk with
    | fall => cases h
    | none | rise => cases oh <;> cases od <;> rfl
  | hbitR o dat | hbitF o dat | dbitR o dat | dbitF o dat => cases o <;> cases dat <;> rfl
  | htrail oh od e | acks oh od e | acke oh od e | dtrail oh od e => cases oh <;> cases od <;> cases e <;> rfl
  | rsvdPhase oh od clk dat => cases oh <;> cases od <;> cases clk <;> cases dat <;> rfl
  | hold ph oh od clk dat =>
    revert h
    cases ph <;> cases oh <;> cases od <;> cases clk <;> cases dat <;> decide

end Sys2Proof

namespace Sys2Proof.Machine

/-! ### Selecting a transition -/

/-- The edge of the clock line on the sample at the ports. -/
def clockEdge (s : State) : Edge := edgeBetween s.prevClk s.smp.clk

/-- The edge of the data line on the sample at the ports. -/
def dataEdge (s : State) : Edge := edgeBetween s.prevDat s.smp.dat

@[simp] theorem clockEdge_presentSample (x : Sample) (rest : List Input) (s : State) :
    clockEdge (presentSample x rest s) = edgeBetween s.prevClk x.clk := rfl

@[simp] theorem dataEdge_presentSample (x : Sample) (rest : List Input) (s : State) :
    dataEdge (presentSample x rest s) = edgeBetween s.prevDat x.dat := rfl

theorem edgeBetween_eq_rise {before now : Level} : edgeBetween before now = .rise ↔ before = false ∧ now = true := by
  cases before <;> cases now <;> decide

/-- Once a sample has been seen, the selector's fields are the state and the two lines' edges (R62, R73). -/
theorem selectorFields_of_prevValid {s : State} (h : s.prevValid = true) :
    selectorFields s = liveFields s.phase s.optHtodEdge s.optDtohEdge (clockEdge s) (dataEdge s) := by
  have bits : ∀ before now : Level,
      (!before && now) = (edgeBetween before now).riseBit ∧ (before && !now) = (edgeBetween before now).fallBit := by decide
  obtain ⟨cr, cf⟩ := bits s.prevClk s.smp.clk
  obtain ⟨dr, df⟩ := bits s.prevDat s.smp.dat
  simp [selectorFields, liveFields, clockRises, clockFalls, dataRises, dataFalls, clockEdge, dataEdge, h, cr, cf, dr, df]

/-! ### What a step can do -/

/-- `Moves p u`: the transition that state `p` performs on the sample at its ports makes it `u` (R102 to R113). Each arm names the
wait condition of R55 with the priority of R105, and no two arms have their conditions in common. -/
inductive Moves (p : State) : State → Prop
  | first (hv : p.prevValid = false) (hp : p.phase = .detect) : Moves p p
  | hold (hv : p.prevValid = true)
      (unfired : p.phase.fires p.optHtodEdge p.optDtohEdge (clockEdge p) (dataEdge p) = false) : Moves p p
  | startHtod (hv : p.prevValid = true) (hp : p.phase = .detect) (edge : clockEdge p = .fall) :
      Moves p (setPhase .htodBit (setDir .hostToDevice p))
  | startDtoh (hv : p.prevValid = true) (hp : p.phase = .detect) (noFall : clockEdge p ≠ .fall)
      (edge : dataEdge p ≠ .none) : Moves p (startDeviceToHost p)
  | sampleHtod (hv : p.prevValid = true) (hp : p.phase = .htodBit) (edge : clockEdge p = p.optHtodEdge.edge) :
      Moves p (sampleBit .htodBit .htodTrail p)
  | sampleDtoh (hv : p.prevValid = true) (hp : p.phase = .dtohBit) (edge : clockEdge p = p.optDtohEdge.edge) :
      Moves p (sampleBit .dtohBit .dtohTrail p)
  | trailHtod (hv : p.prevValid = true) (hp : p.phase = .htodTrail) (edge : clockEdge p = .rise) :
      Moves p (setPhase .ackWaitData p)
  | startAck (hv : p.prevValid = true) (hp : p.phase = .ackWaitData) (edge : dataEdge p = .rise) :
      Moves p (setPhase .ackWaitClk (setAckStart p.smp.idx p))
  | endAck (hv : p.prevValid = true) (hp : p.phase = .ackWaitClk) (edge : clockEdge p = .rise) :
      Moves p (endPostFrame
        (emitAll [{ cat := .ack, startIdx := p.ackStart, endIdx := p.smp.idx, payload := 0x00#8 }] p))
  | trailDtoh (hv : p.prevValid = true) (hp : p.phase = .dtohTrail) (edge : clockEdge p = .rise) :
      Moves p (endPostFrame p)

/-- A legal state has a move: where the wait condition does not fire it holds, and each wait condition that fires has its arm. -/
theorem exists_moves {p : State} (legal : p.phase ≠ .reserved) (first : p.prevValid = false → p.phase = .detect) :
    ∃ u, Moves p u := by
  cases hv : p.prevValid
  case false => exact ⟨_, .first hv (first hv)⟩
  cases fired : p.phase.fires p.optHtodEdge p.optDtohEdge (clockEdge p) (dataEdge p)
  case false => exact ⟨_, .hold hv fired⟩
  cases hp : p.phase <;> simp [hp, Phase.fires] at fired
  case detect =>
    by_cases hc : clockEdge p = .fall
    · exact ⟨_, .startHtod hv hp hc⟩
    · exact ⟨_, .startDtoh hv hp hc (fired.resolve_left hc)⟩
  case htodBit => exact ⟨_, .sampleHtod hv hp fired⟩
  case dtohBit => exact ⟨_, .sampleDtoh hv hp fired⟩
  case htodTrail => exact ⟨_, .trailHtod hv hp fired⟩
  case ackWaitData => exact ⟨_, .startAck hv hp fired⟩
  case ackWaitClk => exact ⟨_, .endAck hv hp fired⟩
  case dtohTrail => exact ⟨_, .trailDtoh hv hp fired⟩
  case reserved => exact absurd hp legal

/-- A move is what some well-formed transition with the selector's fields does. -/
theorem Moves.transition {p u : State} (m : Moves p u) :
    ∃ i : Instr, i.wellFormed = true ∧ i.toFields = selectorFields p ∧ exec i p = .next u := by
  cases m with
  | first hv hp =>
    refine ⟨.init p.optHtodEdge p.optDtohEdge, rfl, ?_, rfl⟩
    simp [selectorFields, Instr.toFields, clockRises, clockFalls, dataRises, dataFalls, hv, hp]
  | hold hv unfired =>
    rw [selectorFields_of_prevValid hv]
    exact ⟨.hold p.phase p.optHtodEdge p.optDtohEdge (clockEdge p) (dataEdge p), by simp [Instr.wellFormed, unfired], rfl, rfl⟩
  | startHtod hv hp edge =>
    rw [selectorFields_of_prevValid hv, hp, edge]
    exact ⟨.detectH p.optHtodEdge p.optDtohEdge (dataEdge p), rfl, rfl, rfl⟩
  | startDtoh hv hp noFall edge =>
    rw [selectorFields_of_prevValid hv, hp]
    cases e : dataEdge p
    case none => exact absurd e edge
    case rise => exact ⟨.detectDR p.optHtodEdge p.optDtohEdge (clockEdge p), by simp [Instr.wellFormed, noFall], rfl, rfl⟩
    case fall => exact ⟨.detectDF p.optHtodEdge p.optDtohEdge (clockEdge p), by simp [Instr.wellFormed, noFall], rfl, rfl⟩
  | sampleHtod hv hp edge =>
    rw [selectorFields_of_prevValid hv, hp, edge]
    cases p.optHtodEdge
    case rise => exact ⟨.hbitR p.optDtohEdge (dataEdge p), rfl, rfl, rfl⟩
    case fall => exact ⟨.hbitF p.optDtohEdge (dataEdge p), rfl, rfl, rfl⟩
  | sampleDtoh hv hp edge =>
    rw [selectorFields_of_prevValid hv, hp, edge]
    cases p.optDtohEdge
    case rise => exact ⟨.dbitR p.optHtodEdge (dataEdge p), rfl, rfl, rfl⟩
    case fall => exact ⟨.dbitF p.optHtodEdge (dataEdge p), rfl, rfl, rfl⟩
  | trailHtod hv hp edge =>
    rw [selectorFields_of_prevValid hv, hp, edge]
    exact ⟨.htrail p.optHtodEdge p.optDtohEdge (dataEdge p), rfl, rfl, rfl⟩
  | startAck hv hp edge =>
    rw [selectorFields_of_prevValid hv, hp, edge]
    exact ⟨.acks p.optHtodEdge p.optDtohEdge (clockEdge p), rfl, rfl, rfl⟩
  | endAck hv hp edge =>
    rw [selectorFields_of_prevValid hv, hp, edge]
    exact ⟨.acke p.optHtodEdge p.optDtohEdge (dataEdge p), rfl, rfl, rfl⟩
  | trailDtoh hv hp edge =>
    rw [selectorFields_of_prevValid hv, hp, edge]
    exact ⟨.dtrail p.optHtodEdge p.optDtohEdge (dataEdge p), rfl, rfl, rfl⟩

/-- The wrapper's checks pass exactly when the sample at the ports is accepted (R72, R114). -/
theorem checkSample_eq_none_iff (p : State) : checkSample p = none ↔ Accepts p p.smp := by
  have checks : checkSample p = none ↔ outOfOrder p = false ∧ outsideReset p = false := by
    unfold checkSample
    cases outOfOrder p <;> cases outsideReset p <;> simp
  rw [checks]
  constructor
  · rintro ⟨order, inside⟩
    simp only [outOfOrder, outsideReset, Bool.and_eq_false_imp, decide_eq_false_iff_not, Nat.not_le, Bool.or_eq_false_iff,
      beq_eq_false_iff_ne, Bool.not_eq_true', bne_eq_false_iff_eq] at order inside
    obtain ⟨⟨hp, hd⟩, hf⟩ := inside
    exact ⟨order, hp, hd, hf⟩
  · rintro ⟨ho, hp, hd, hf⟩
    simpa [outOfOrder, outsideReset] using ⟨ho, ⟨hp, hd⟩, hf⟩

theorem checkSample_presentSample_eq_none_iff {s : State} {x : Sample} {rest : List Input} :
    checkSample (presentSample x rest s) = none ↔ Accepts s x := by
  rw [checkSample_eq_none_iff]
  exact ⟨fun ⟨ho, hp, hd, hf⟩ => ⟨ho, hp, hd, hf⟩, fun ⟨ho, hp, hd, hf⟩ => ⟨ho, hp, hd, hf⟩⟩

/-- On an accepted sample a move decides the step. -/
theorem step_of_moves {s u : State} {x : Sample} {rest : List Input} (hin : s.input = .sample x :: rest) (acc : Accepts s x)
    (m : Moves (presentSample x rest s) u) : step s = .next (loadPrevious u) := by
  obtain ⟨i, wf, fields, run⟩ := m.transition
  have dec : decode (selector (presentSample x rest s)) = .instr i := by rw [selector, ← fields]; exact decode_encode i wf
  simp [step, hin, sampleStep, checkSample_presentSample_eq_none_iff.mpr acc, dec, run, finishStep]

/-- A step on a sample answers a next state exactly when the sample is accepted, and then it makes the state's move and loads the
previous-level registers (R101). -/
theorem step_sample_iff {s t : State} {x : Sample} {rest : List Input} (hin : s.input = .sample x :: rest) :
    step s = .next t ↔ Accepts s x ∧ ∃ u, Moves (presentSample x rest s) u ∧ t = loadPrevious u := by
  constructor
  · intro h
    have acc : Accepts s x := by
      rw [← checkSample_presentSample_eq_none_iff (rest := rest)]
      cases check : checkSample (presentSample x rest s) with
      | none => rfl
      | some f => simp [step, hin, sampleStep, check, raise] at h
    obtain ⟨u, m⟩ := exists_moves (p := presentSample x rest s) acc.phaseLegal acc.firstSample
    have e := h.symm.trans (step_of_moves hin acc m)
    exact ⟨acc, u, m, by injection e⟩
  · rintro ⟨acc, u, m, rfl⟩
    exact step_of_moves hin acc m

/-! ### What the moves leave alone -/

@[simp] theorem sampleBit_dir (stay trail : Phase) (s : State) : (sampleBit stay trail s).dir = s.dir := by
  rw [sampleBit_frame]

@[simp] theorem sampleBit_ackStart (stay trail : Phase) (s : State) : (sampleBit stay trail s).ackStart = s.ackStart := by
  rw [sampleBit_frame]

@[simp] theorem sampleBit_prevValid (stay trail : Phase) (s : State) : (sampleBit stay trail s).prevValid = s.prevValid := by
  rw [sampleBit_frame]

@[simp] theorem startDeviceToHost_phase (s : State) : (startDeviceToHost s).phase = .dtohBit := rfl

@[simp] theorem startDeviceToHost_dir (s : State) : (startDeviceToHost s).dir = .deviceToHost := by
  rw [startDeviceToHost_frame]

@[simp] theorem startDeviceToHost_ackStart (s : State) : (startDeviceToHost s).ackStart = s.ackStart := by
  rw [startDeviceToHost_frame]

@[simp] theorem endPostFrame_phase (s : State) : (endPostFrame s).phase = .detect := rfl
@[simp] theorem endPostFrame_dir (s : State) : (endPostFrame s).dir = .idle := rfl
@[simp] theorem endPostFrame_count (s : State) : (endPostFrame s).count = s.count := rfl
@[simp] theorem endPostFrame_bits (s : State) : (endPostFrame s).bits = s.bits := rfl
@[simp] theorem endPostFrame_ackStart (s : State) : (endPostFrame s).ackStart = s.ackStart := rfl

/-- No move touches the sample at the ports. -/
theorem Moves.smp {p u : State} (m : Moves p u) : u.smp = p.smp := by
  obtain ⟨i, -, -, run⟩ := m.transition
  rw [exec_next_keeps run]

/-- No move touches the stream. -/
theorem Moves.input {p u : State} (m : Moves p u) : u.input = p.input := by
  obtain ⟨i, -, -, run⟩ := m.transition
  rw [exec_next_keeps run]

/-! ### Who writes which register -/

/-- `ack_start` is written by the start of an ACK only (R26, R110). -/
theorem Moves.ackStart_writer {p u : State} (m : Moves p u) (h : u.ackStart ≠ p.ackStart) :
    p.phase = .ackWaitData ∧ dataEdge p = .rise ∧ u.ackStart = p.smp.idx := by
  cases m with
  | startAck hv hp edge => exact ⟨hp, edge, rfl⟩
  | _ => exact absurd (by simp) h

/-- The direction is written by detection and by the end of a post-frame sequence only (R23, R115). -/
theorem Moves.dir_writer {p u : State} (m : Moves p u) (h : u.dir ≠ p.dir) :
    (p.phase = .detect ∧ u.phase = .htodBit ∧ u.dir = .hostToDevice) ∨
    (p.phase = .detect ∧ u.phase = .dtohBit ∧ u.dir = .deviceToHost) ∨
    ((p.phase = .ackWaitClk ∨ p.phase = .dtohTrail) ∧ u.phase = .detect ∧ u.dir = .idle) := by
  cases m with
  | startHtod hv hp edge => exact .inl ⟨hp, rfl, rfl⟩
  | startDtoh hv hp noFall edge => exact .inr (.inl ⟨hp, by simp⟩)
  | endAck hv hp edge => exact .inr (.inr ⟨.inl hp, rfl, rfl⟩)
  | trailDtoh hv hp edge => exact .inr (.inr ⟨.inr hp, rfl, rfl⟩)
  | _ => exact absurd (by simp) h

/-- Settles O36: a step on a sample is a move and the wrapper's load, and each move names the registers it writes. -/
theorem writersOfRegisters : Obligations.WritersOfRegisters := by
  intro s t x rest hin h
  obtain ⟨-, u, m, rfl⟩ := (step_sample_iff hin).mp h
  refine ⟨fun ha => ?_, m.dir_writer, by simp [m.smp], by simp [m.smp], rfl, by simp [m.smp], m.smp, m.input⟩
  obtain ⟨hp, edge, start⟩ := m.ackStart_writer ha
  obtain ⟨before, now⟩ := edgeBetween_eq_rise.mp edge
  exact ⟨hp, before, now, start⟩

/-! ### Moves between phases -/

/-- A sampling transition leaves its phase for `DETECT` with a discarded sample and for the trail with the eleventh bit (R108). -/
theorem sampleBit_phase (stay trail : Phase) (s : State) :
    (sampleBit stay trail s).phase =
      if s.count = 0 ∧ s.smp.dat = true then .detect else if s.count = 10 then trail else stay := by
  rcases sampleBit_cases stay trail s with ⟨full, e⟩ | ⟨zero, dat, e⟩ | ⟨ten, e⟩ | ⟨low, kept, e⟩ <;> rw [e, setPhase_phase]
  · have ne : ∀ c : Fin 16, 11 ≤ c → c ≠ 0 ∧ c ≠ 10 := by decide
    simp [ne _ full]
  · simp [zero, dat]
  · simp [ten]
  · have ne : ∀ c : Fin 16, c < 10 → c ≠ 10 := by decide
    simp [kept, ne _ low]

/-- The arrows between phases, with the condition on each (R22, R55, R105, R108). -/
def Arrow (p : State) (q : Phase) : Prop :=
  (p.phase = .detect ∧ q = .htodBit ∧ clockEdge p = .fall) ∨
  (p.phase = .detect ∧ q = .dtohBit ∧ clockEdge p ≠ .fall ∧ dataEdge p ≠ .none) ∨
  (p.phase = .htodBit ∧ q = .detect ∧ clockEdge p = p.optHtodEdge.edge ∧ p.count = 0 ∧ p.smp.dat = true) ∨
  (p.phase = .htodBit ∧ q = .htodTrail ∧ clockEdge p = p.optHtodEdge.edge ∧ p.count = 10) ∨
  (p.phase = .dtohBit ∧ q = .detect ∧ clockEdge p = p.optDtohEdge.edge ∧ p.count = 0 ∧ p.smp.dat = true) ∨
  (p.phase = .dtohBit ∧ q = .dtohTrail ∧ clockEdge p = p.optDtohEdge.edge ∧ p.count = 10) ∨
  (p.phase = .htodTrail ∧ q = .ackWaitData ∧ clockEdge p = .rise) ∨
  (p.phase = .ackWaitData ∧ q = .ackWaitClk ∧ dataEdge p = .rise) ∨
  (p.phase = .ackWaitClk ∧ q = .detect ∧ clockEdge p = .rise) ∨
  (p.phase = .dtohTrail ∧ q = .detect ∧ clockEdge p = .rise)

/-- An arrow is taken only where the wait condition of its phase fires. -/
theorem Arrow.fires {p : State} {q : Phase} (a : Arrow p q) :
    p.phase.fires p.optHtodEdge p.optDtohEdge (clockEdge p) (dataEdge p) = true := by
  rcases a with ⟨hp, -, e⟩ | ⟨hp, -, -, e⟩ | ⟨hp, -, e, -⟩ | ⟨hp, -, e, -⟩ | ⟨hp, -, e, -⟩ | ⟨hp, -, e, -⟩ |
    ⟨hp, -, e⟩ | ⟨hp, -, e⟩ | ⟨hp, -, e⟩ | ⟨hp, -, e⟩ <;>
  simp [hp, e, Phase.fires]

/-- A move to another phase goes along an arrow, and every arrow is a move. -/
theorem Moves.phase_eq_iff {p u : State} (m : Moves p u) {q : Phase} (hq : q ≠ p.phase) :
    u.phase = q ↔ p.prevValid = true ∧ Arrow p q := by
  rw [@eq_comm _ u.phase]
  cases m with
  | first hv hp => simp [hv, hq]
  | hold hv unfired => exact iff_of_false hq fun ⟨_, a⟩ => by simp [a.fires] at unfired
  | startDtoh hv hp noFall edge => simp [Arrow, hv, hp, edge, noFall]
  | sampleHtod hv hp edge | sampleDtoh hv hp edge =>
    rw [hp] at hq
    simp only [Arrow, hv, hp, edge, sampleBit_phase]
    split_ifs <;> simp_all
  | _ hv hp edge => simp [Arrow, hv, hp, edge]

/-- Settles O37: a step on a sample is a move, and the moves between phases are the arrows. -/
theorem phaseMoves : Obligations.PhaseMoves := by
  intro s t x rest hin h clk dat q hq
  obtain ⟨-, u, m, rfl⟩ := (step_sample_iff hin).mp h
  exact m.phase_eq_iff hq

/-! ### The first sample of a run -/

/-- The first sample of a run is refused outside the reset invariant (R114) and otherwise only loads the previous-level registers
(R102). -/
theorem step_first {s : State} {x : Sample} {rest : List Input} (hin : s.input = .sample x :: rest)
    (hv : s.prevValid = false) :
    step s = if outsideReset s then .fault .unreachable else .next (afterSample x rest s) := by
  have order : outOfOrder (presentSample x rest s) = false := by simp [outOfOrder, hv]
  have same : outsideReset (presentSample x rest s) = outsideReset s := rfl
  split
  case isTrue outside => simp [step, hin, sampleStep, checkSample, order, same, outside, raise]
  case isFalse inside =>
    have acc : Accepts s x := by
      rw [← checkSample_presentSample_eq_none_iff (rest := rest)]
      simp [checkSample, order, same, inside]
    exact step_of_moves hin acc (.first hv (acc.firstSample hv))

/-- Settles O46: the first sample's step reads none of the three registers and loads them all. -/
theorem unsetRegistersUnread : Obligations.UnsetRegistersUnread := by
  intro s c e k x rest hin hv
  rw [step_first hin hv]
  exact step_first (s := { s with prevClk := c, prevDat := e, lastIdx := k }) hin hv

/-! ### The bit buffer -/

/-- What the slots read after a write to one of them. -/
theorem slotAt_putSlot {j : Nat} (hj : j < 11) (x : Slot) (s : State) (i : Nat) :
    slotAt (putSlot j x s) i = if i = j then x else slotAt s i := by
  split
  case isTrue e => rw [e, slotAt_putSlot_self hj]
  case isFalse ne => exact slotAt_putSlot_ne (Ne.symm ne) x s

/-- Which slots are occupied after a write to one of them. -/
theorem isSome_putSlot {i : Nat} (hi : i < 11) (j : Nat) (x : Slot) (s : State) :
    (putSlot j x s).bits[i].isSome = true ↔ i = j ∨ s.bits[i].isSome = true := by
  simp only [putSlot_bits, Vector.getElem_setIfInBounds]
  by_cases e : j = i
  · simp [e]
  · simp [e, Ne.symm e]

/-- What the slots read after the end fix-up (R84). -/
theorem slotAt_fixPreviousEnd {n : Nat} (hn : n ≤ 11) (k : Nat) (s : State) (i : Nat) :
    slotAt (fixPreviousEnd n k s) i = if i + 1 = n then { slotAt s i with endIdx := k } else slotAt s i := by
  unfold fixPreviousEnd
  split
  case isTrue pos =>
    rw [setSlotEnd, slotAt_putSlot (by omega)]
    have same : i = n - 1 ↔ i + 1 = n := by omega
    by_cases e : i + 1 = n
    · rw [if_pos (same.mpr e), if_pos e, same.mpr e]
    · rw [if_neg (mt same.mp e), if_neg e]
  case isFalse zero => rw [if_neg (by omega)]

/-- Which slots are occupied after the end fix-up. -/
theorem isSome_fixPreviousEnd {i : Nat} (hi : i < 11) (n k : Nat) (s : State) :
    (fixPreviousEnd n k s).bits[i].isSome = true ↔ i + 1 = n ∨ s.bits[i].isSome = true := by
  unfold fixPreviousEnd
  split
  case isTrue pos =>
    rw [setSlotEnd, isSome_putSlot hi]
    have same : i = n - 1 ↔ i + 1 = n := by omega
    rw [same]
  case isFalse zero => simp [show i + 1 ≠ n by omega]

/-- The slot that holds the newest bit after an append (R82). -/
theorem slotAt_appendBit_newest (v : Level) (k : Nat) {s : State} (room : s.count.val < 11) :
    slotAt (appendBit v k s) s.count.val = { value := v, startIdx := k, endIdx := k } := by
  rw [appendBit, slotAt_setCount, slotAt_fixPreviousEnd room.le, if_neg (by omega), slotAt_putSlot_self room]

/-- The slots before it keep value and start, and the last of them ends where the new bit starts (R84). -/
theorem slotAt_appendBit_older (v : Level) (k : Nat) {s : State} (room : s.count.val < 11) {i : Nat} (hi : i < s.count.val) :
    slotAt (appendBit v k s) i =
      { slotAt s i with endIdx := if i + 1 = s.count.val then k else (slotAt s i).endIdx } := by
  rw [appendBit, slotAt_setCount, slotAt_fixPreviousEnd room.le, slotAt_putSlot_ne (by omega)]
  split <;> rfl

/-- An append counts the bit. -/
theorem appendBit_count_val (v : Level) (k : Nat) {s : State} (room : s.count.val < 11) :
    (appendBit v k s).count.val = s.count.val + 1 := by
  rw [appendBit_count, Fin.val_add_one_of_lt']
  omega

/-- Which slots are occupied after a bit has been appended. -/
theorem isSome_appendBit (v : Level) (k : Nat) (s : State) {i : Nat} (hi : i < 11) :
    (appendBit v k s).bits[i].isSome = true ↔ i + 1 = s.count.val ∨ i = s.count.val ∨ s.bits[i].isSome = true := by
  rw [appendBit, setCount_bits, isSome_fixPreviousEnd hi, isSome_putSlot hi]

/-! ### The invariant in two parts -/

/-- The clauses of the invariant about the accumulator, with `last` for the last sample's index: R32's 1 to 5, the occupancy of
R61, and that the newest bit is no later than `last`. -/
structure BufferInvariant (s : State) (last : Nat) : Prop where
  countAtMostTen : s.count ≤ 10
  occupancy : ∀ i : Fin 11, s.bits[i].isSome = true ↔ i.val < s.count.val
  endsMeetStarts : ∀ i : Fin 11, i.val + 1 < s.count.val → (slotAt s i.val).endIdx = (slotAt s (i.val + 1)).startIdx
  newestIsPoint : 0 < s.count → (slotAt s (s.count.val - 1)).endIdx = (slotAt s (s.count.val - 1)).startIdx
  startBitIsZero : 0 < s.count → (slotAt s 0).value = false
  startsIncrease : ∀ i : Fin 11, i.val + 1 < s.count.val → (slotAt s i.val).startIdx < (slotAt s (i.val + 1)).startIdx
  capturedBefore : 0 < s.count → (slotAt s (s.count.val - 1)).startIdx ≤ last

/-- The clauses of the invariant about the phase, phase by phase: R32's 6 to 9, and that a started ACK is no later than the last
sample. -/
def PhaseInvariant (s : State) : Prop :=
  match s.phase with
  | .detect      => s.count = 0 ∧ s.dir ≠ .reserved
  | .htodBit     => s.dir = .hostToDevice ∧ s.prevValid = true
  | .dtohBit     => s.dir = .deviceToHost ∧ s.prevValid = true
  | .htodTrail   => s.count = 0 ∧ s.dir = .hostToDevice ∧ s.prevValid = true
  | .ackWaitData => s.count = 0 ∧ s.dir = .hostToDevice ∧ s.prevValid = true
  | .ackWaitClk  => s.count = 0 ∧ s.dir = .hostToDevice ∧ s.prevValid = true ∧ s.ackStart ≤ s.lastIdx
  | .dtohTrail   => s.count = 0 ∧ s.dir = .deviceToHost ∧ s.prevValid = true
  | .reserved    => False

/-- The invariant gives the phase part: outside the sampling phases nothing is captured, and outside `DETECT` a sample has been
seen. -/
theorem Invariant.phaseInvariant {s : State} (inv : Invariant s) : PhaseInvariant s := by
  obtain ⟨r, -, -, ack⟩ := inv
  have zero : ¬ (s.phase = .htodBit ∨ s.phase = .dtohBit) → s.count = 0 := fun idle =>
    Classical.byContradiction fun some => idle (r.capturingPhase (Fin.pos_iff_ne_zero.mpr some))
  have valid : s.phase ≠ .detect → s.prevValid = true := fun begun =>
    Bool.eq_true_of_not_eq_false fun first => begun (r.beforeFirstSample first).1
  unfold PhaseInvariant
  cases hp : s.phase <;> rw [hp] at valid
  case detect => exact ⟨zero (by simp [hp]), r.dirLegal⟩
  case htodBit => exact ⟨r.htodDirection hp, valid nofun⟩
  case dtohBit => exact ⟨r.dtohDirection hp, valid nofun⟩
  case htodTrail => exact ⟨zero (by simp [hp]), (r.htodPostFrame (.inl hp)).2, valid nofun⟩
  case ackWaitData => exact ⟨zero (by simp [hp]), (r.htodPostFrame (.inr (.inl hp))).2, valid nofun⟩
  case ackWaitClk => exact ⟨zero (by simp [hp]), (r.htodPostFrame (.inr (.inr hp))).2, valid nofun, ack hp⟩
  case dtohTrail => exact ⟨zero (by simp [hp]), (r.dtohPostFrame hp).2, valid nofun⟩
  case reserved => exact r.phaseLegal hp

/-- The invariant is its part about the accumulator and its part about the phase. -/
theorem invariant_iff {s : State} : Invariant s ↔ BufferInvariant s s.lastIdx ∧ PhaseInvariant s := by
  constructor
  · intro inv
    have phase := inv.phaseInvariant
    obtain ⟨r, occupancy, captured, -⟩ := inv
    exact ⟨⟨r.countAtMostTen, occupancy, r.endsMeetStarts, r.newestIsPoint, r.startBitIsZero, r.startsIncrease, captured⟩, phase⟩
  · rintro ⟨b, phase⟩
    refine ⟨⟨b.countAtMostTen, b.endsMeetStarts, b.newestIsPoint, b.startBitIsZero, b.startsIncrease,
      ?_, ?_, ?_, ?_, ?_, ?_, ?_, ?_⟩, b.occupancy, b.capturedBefore, ?_⟩
    -- R32's clauses 6 to 9 and the ACK's bound are each read off the clause of the phase the state is in.
    all_goals
      clear b
      unfold PhaseInvariant at phase
      cases hp : s.phase <;> simp_all

/-- The accumulator part speaks of the count and the occupied slots only, and a later sample keeps it. -/
theorem BufferInvariant.of_same {s t : State} {last last' : Nat} (b : BufferInvariant s last) (hc : t.count = s.count)
    (hb : t.bits = s.bits) (later : 0 < s.count → last ≤ last') : BufferInvariant t last' := by
  have small : s.count.val ≤ 10 := b.countAtMostTen
  have same : ∀ i, i < s.count.val → slotAt t i = slotAt s i := by
    intro i hi
    obtain ⟨x, hx⟩ := Option.isSome_iff_exists.mp ((b.occupancy ⟨i, by omega⟩).mpr hi)
    have hx' : t.bits[i] = some x := by simp only [hb]; exact hx
    rw [slotAt_of_getElem (by omega) hx', slotAt_of_getElem (by omega) hx]
  constructor <;> rw [hc]
  · exact b.countAtMostTen
  · rw [hb]
    exact b.occupancy
  · intro i hi
    rw [same i (by omega), same (i + 1) hi]
    exact b.endsMeetStarts i hi
  · intro pos
    rw [same _ (Nat.sub_lt pos Nat.one_pos)]
    exact b.newestIsPoint pos
  · intro pos
    rw [same 0 pos]
    exact b.startBitIsZero pos
  · intro i hi
    rw [same i (by omega), same (i + 1) hi]
    exact b.startsIncrease i hi
  · intro pos
    rw [same _ (Nat.sub_lt pos Nat.one_pos)]
    exact (b.capturedBefore pos).trans (later pos)

/-- An empty accumulator meets its part of the invariant. -/
theorem BufferInvariant.of_empty {s : State} (hc : s.count = 0) (hb : s.bits = emptyBits) (last : Nat) :
    BufferInvariant s last := by
  constructor <;> simp [hc, hb, emptyBits]

/-- Appending a bit that is not discarded (R82 to R84) keeps the accumulator part, and the bit's sample is then the last one. -/
theorem BufferInvariant.append {s : State} {last : Nat} (b : BufferInvariant s last) {v : Level} {k : Nat} (room : s.count < 10)
    (kept : ¬ (s.count = 0 ∧ v = true)) (later : 0 < s.count → last < k) : BufferInvariant (appendBit v k s) k := by
  have small : s.count.val < 10 := room
  have hc : (appendBit v k s).count.val = s.count.val + 1 := appendBit_count_val v k (by omega)
  have newest : slotAt (appendBit v k s) s.count.val = { value := v, startIdx := k, endIdx := k } :=
    slotAt_appendBit_newest v k (by omega)
  have older : ∀ i, i < s.count.val → slotAt (appendBit v k s) i =
      { slotAt s i with endIdx := if i + 1 = s.count.val then k else (slotAt s i).endIdx } :=
    fun i hi => slotAt_appendBit_older v k (by omega) hi
  constructor
  · exact Nat.le_of_lt_succ (by omega : (appendBit v k s).count.val < 11)
  · intro i
    have occupied := b.occupancy i
    rw [Fin.getElem_fin] at occupied ⊢
    rw [isSome_appendBit v k s i.isLt, occupied, hc]
    omega
  · intro i hi
    rw [hc] at hi
    rw [older i (by omega)]
    by_cases e : i.val + 1 = s.count.val
    · simp only [e, newest, if_true]
    · rw [older (i + 1) (by omega), if_neg e]
      exact b.endsMeetStarts i (by omega)
  · intro _
    rw [hc, Nat.add_sub_cancel, newest]
  · intro _
    by_cases e : s.count.val = 0
    · rw [← e, newest]
      exact Bool.eq_false_iff.mpr fun hv => kept ⟨Fin.ext e, hv⟩
    · rw [older 0 (by omega)]
      exact b.startBitIsZero (Nat.pos_of_ne_zero e)
  · intro i hi
    rw [hc] at hi
    rw [older i (by omega)]
    by_cases e : i.val + 1 = s.count.val
    · have pos : 0 < s.count.val := by omega
      have before := b.capturedBefore pos
      rw [← e, Nat.add_sub_cancel] at before
      rw [e, newest]
      exact before.trans_lt (later pos)
    · rw [older (i + 1) (by omega)]
      exact b.startsIncrease i (by omega)
  · intro _
    rw [hc, Nat.add_sub_cancel, newest]

/-! ### Every step keeps the invariant -/

/-- A sampling transition stays in its phase, or leaves it with nothing captured. -/
theorem sampleBit_stays_or_empties (stay trail : Phase) (s : State) :
    (sampleBit stay trail s).phase = stay ∨
    (sampleBit stay trail s).count = 0 ∧
      ((sampleBit stay trail s).phase = .detect ∨ (sampleBit stay trail s).phase = trail) := by
  rcases sampleBit_cases stay trail s with ⟨-, e⟩ | ⟨zero, -, e⟩ | ⟨-, e⟩ | ⟨-, -, e⟩ <;> rw [e]
  · exact .inl rfl
  · exact .inr ⟨zero, .inl rfl⟩
  · exact .inr ⟨rfl, .inr rfl⟩
  · exact .inl rfl

/-- With nothing captured, the DtoH start discards a 1 and captures a 0 as the start bit (R104, R83). -/
theorem startDeviceToHost_cases {s : State} (zero : s.count = 0) :
    startDeviceToHost s = setPhase .dtohBit (setDir .deviceToHost s) ∨
    (s.smp.dat = false ∧
      startDeviceToHost s = setPhase .dtohBit (appendBit s.smp.dat s.smp.idx (setDir .deviceToHost s))) := by
  rcases capture_cases s.smp.dat s.smp.idx (setDir .deviceToHost s) with ⟨full, -⟩ | ⟨-, -, e⟩ | ⟨ten, -⟩ | ⟨-, kept, e⟩
  · exact absurd full (by simp [zero])
  · exact .inl (by rw [startDeviceToHost, e])
  · exact absurd ten (by simp [zero])
  · exact .inr ⟨Bool.eq_false_iff.mpr fun hd => kept ⟨zero, hd⟩, by rw [startDeviceToHost, e]⟩

/-- A sampling transition keeps the accumulator part: it leaves the accumulator alone, empties it or appends a bit. -/
theorem BufferInvariant.sampleBit {s : State} {last : Nat} (b : BufferInvariant s last) (stay trail : Phase)
    (later : 0 < s.count → last < s.smp.idx) : BufferInvariant (sampleBit stay trail s) s.smp.idx := by
  rcases sampleBit_cases stay trail s with ⟨-, e⟩ | ⟨-, -, e⟩ | ⟨-, e⟩ | ⟨room, kept, e⟩ <;> rw [e]
  · exact b.of_same rfl rfl fun pos => (later pos).le
  · exact b.of_same rfl rfl fun pos => (later pos).le
  · exact .of_empty rfl rfl _
  · exact (b.append room kept later).of_same rfl rfl fun _ => le_rfl

/-- The DtoH start keeps the accumulator part: it leaves the empty accumulator alone or appends the start bit. -/
theorem BufferInvariant.startDeviceToHost {s : State} {last : Nat} (b : BufferInvariant s last) (zero : s.count = 0) :
    BufferInvariant (startDeviceToHost s) s.smp.idx := by
  have never : ¬ 0 < s.count := by simp [zero]
  have b' : BufferInvariant (setDir .deviceToHost s) s.smp.idx := b.of_same rfl rfl fun pos => absurd pos never
  rcases startDeviceToHost_cases zero with e | ⟨low, e⟩ <;> rw [e]
  · exact b'.of_same rfl rfl fun _ => le_rfl
  · have start := b'.append (v := s.smp.dat) (k := s.smp.idx) (by simp [zero]) (by simp [low]) fun pos => absurd pos never
    exact start.of_same rfl rfl fun _ => le_rfl

/-- A move on a sample in order keeps the accumulator part. -/
theorem Moves.bufferInvariant {p u : State} (m : Moves p u) (inv : Invariant p)
    (order : p.prevValid = true → p.lastIdx < p.smp.idx) : BufferInvariant u p.smp.idx := by
  obtain ⟨b, -⟩ := invariant_iff.mp inv
  have later : 0 < p.count → p.lastIdx < p.smp.idx := by
    intro pos
    refine order (Bool.eq_true_of_not_eq_false fun first => ?_)
    exact absurd (inv.r32.beforeFirstSample first).2 (Fin.pos_iff_ne_zero.mp pos)
  cases m with
  | sampleHtod hv hp edge | sampleDtoh hv hp edge => exact b.sampleBit _ _ later
  | startDtoh hv hp noFall edge =>
    have zero : p.count = 0 := by
      by_contra some
      rcases inv.r32.capturingPhase (Fin.pos_iff_ne_zero.mpr some) with h | h <;> simp [hp] at h
    exact b.startDeviceToHost zero
  | _ => exact b.of_same rfl rfl fun pos => (later pos).le

/-- A move on a sample in order keeps the phase part. -/
theorem Moves.phaseInvariant {p u : State} (m : Moves p u) (inv : PhaseInvariant p)
    (order : p.prevValid = true → p.lastIdx < p.smp.idx) : PhaseInvariant (loadPrevious u) := by
  unfold PhaseInvariant at inv ⊢
  cases m with
  | first hv hp =>
    rw [hp] at inv
    simpa [hp] using inv
  | hold hv unfired =>
    cases hp : p.phase <;> simp only [hp, loadPrevious_phase] at inv ⊢
    case ackWaitClk =>
      obtain ⟨zero, dir, -, before⟩ := inv
      exact ⟨zero, dir, rfl, before.trans (order hv).le⟩
    all_goals simpa [hv] using inv
  | startHtod hv hp edge => exact ⟨rfl, rfl⟩
  | startDtoh hv hp noFall edge => exact ⟨startDeviceToHost_dir p, rfl⟩
  | sampleHtod hv hp edge =>
    simp only [hp] at inv
    rcases sampleBit_stays_or_empties .htodBit .htodTrail p with e | ⟨zero, e | e⟩ <;> simp [*]
  | sampleDtoh hv hp edge =>
    simp only [hp] at inv
    rcases sampleBit_stays_or_empties .dtohBit .dtohTrail p with e | ⟨zero, e | e⟩ <;> simp [*]
  | startAck hv hp edge =>
    simp only [hp] at inv
    obtain ⟨zero, dir, -⟩ := inv
    exact ⟨zero, dir, rfl, le_rfl⟩
  | trailHtod hv hp edge =>
    simp only [hp] at inv
    obtain ⟨zero, dir, -⟩ := inv
    exact ⟨zero, dir, rfl⟩
  | endAck hv hp edge | trailDtoh hv hp edge =>
    simp only [hp] at inv
    obtain ⟨zero, -⟩ := inv
    exact ⟨zero, Direction.noConfusion⟩

/-- The invariant speaks of these registers only. -/
theorem Invariant.of_same {s t : State} (inv : Invariant s) (phase : t.phase = s.phase) (dir : t.dir = s.dir)
    (count : t.count = s.count) (bits : t.bits = s.bits) (ack : t.ackStart = s.ackStart) (valid : t.prevValid = s.prevValid)
    (last : t.lastIdx = s.lastIdx) : Invariant t := by
  obtain ⟨b, ph⟩ := invariant_iff.mp inv
  refine invariant_iff.mpr ⟨b.of_same count bits fun _ => last.ge, ?_⟩
  unfold PhaseInvariant at ph ⊢
  rwa [phase, dir, count, ack, valid, last]

/-- Nothing captured and nothing begun meets the invariant. -/
theorem Invariant.of_fresh {s : State} (phase : s.phase = .detect) (dir : s.dir = .idle) (count : s.count = 0)
    (bits : s.bits = emptyBits) : Invariant s :=
  invariant_iff.mpr ⟨.of_empty count bits _, by simp [PhaseInvariant, phase, dir, count]⟩

/-- Settles O39: the reset state has captured nothing and begun nothing. -/
theorem resetStateMeetsInvariant : Obligations.ResetStateMeetsInvariant :=
  Invariant.of_fresh rfl rfl rfl rfl

/-- Settles O40: a step on a sample is a move, which keeps both parts; a reset begins afresh; every other step leaves the registers
of the invariant alone. -/
theorem stepKeepsInvariant : Obligations.StepKeepsInvariant := by
  intro s t inv h
  cases hin : s.input with
  | nil =>
    rw [step, hin] at h
    cases h
    exact inv
  | cons event rest =>
    cases event with
    | sample x =>
      obtain ⟨acc, u, m, rfl⟩ := (step_sample_iff hin).mp h
      have inv' : Invariant (presentSample x rest s) := inv.of_same rfl rfl rfl rfl rfl rfl rfl
      have buffer := m.bufferInvariant inv' acc.inOrder
      have phase := m.phaseInvariant (invariant_iff.mp inv').2 acc.inOrder
      exact invariant_iff.mpr ⟨buffer.of_same rfl rfl fun _ => (congrArg Sample.idx m.smp).ge, phase⟩
    | config htod dtoh =>
      rw [step, hin] at h
      cases h
      exact inv.of_same rfl rfl rfl rfl rfl rfl rfl
    | reset =>
      rw [step, hin] at h
      cases h
      exact .of_fresh rfl rfl rfl rfl

/-- Settles O41: a run from reset begins in the invariant, and every step keeps it. -/
theorem runsFromResetMeetR32 : Obligations.RunsFromResetMeetR32 := by
  intro h d stream n t run
  exact (run_induction stepKeepsInvariant n _ t (.of_fresh rfl rfl rfl rfl) run).r32

/-- Settles O31 by evaluation of the reset state. -/
theorem resetStateValues : Obligations.ResetStateValues := by
  unfold Obligations.ResetStateValues
  decide

end Sys2Proof.Machine
end

section
/-! Proof of the statement about the order of output (20_memory.md R47). The records a move emits start after every record already
out and no later than the move's sample; what the later emissions will start at, the frame in progress or the started ACK, is kept by
a move or is the move's sample. -/

namespace Sys2Proof.Machine

/-! ### What the operations emit -/

@[simp] theorem appendBit_out (v : Level) (k : Nat) (s : State) : (appendBit v k s).out = s.out := by
  rw [appendBit_eq]

@[simp] theorem startDeviceToHost_out (s : State) : (startDeviceToHost s).out = s.out := by
  rw [startDeviceToHost_frame]

@[simp] theorem endPostFrame_out (s : State) : (endPostFrame s).out = s.out := rfl

/-- The records of a frame start where slots of the buffer start (R91). -/
theorem exists_slot_of_mem_frameRecords {s : State} {r : Record} (h : r ∈ frameRecords s) :
    ∃ i < 11, r.startIdx = (slotAt s i).startIdx := by
  simp only [frameRecords, List.mem_append, List.mem_map, List.mem_range, List.mem_cons, List.not_mem_nil, or_false] at h
  rcases h with ⟨i, hi, rfl⟩ | rfl | rfl | rfl | rfl
  · exact ⟨i, hi, rfl⟩
  · exact ⟨0, by omega, rfl⟩
  · exact ⟨1, by omega, rfl⟩
  · exact ⟨9, by omega, rfl⟩
  · exact ⟨10, by omega, rfl⟩

/-! ### Where slots start -/

/-- Stop-end synthesis moves no start (R86). -/
@[simp] theorem startIdx_synthesizeStopEnd (s : State) (i : Nat) :
    (slotAt (synthesizeStopEnd s) i).startIdx = (slotAt s i).startIdx := by
  rw [synthesizeStopEnd, setSlotEnd, slotAt_putSlot (by omega)]
  split
  case isTrue e => rw [e]
  case isFalse => rfl

/-- An append leaves the starts of the captured bits alone, and the new bit starts at its sample (R82). -/
theorem startIdx_appendBit (v : Level) (k : Nat) {s : State} (room : s.count.val < 11) {i : Nat} (hi : i ≤ s.count.val) :
    (slotAt (appendBit v k s) i).startIdx = if i = s.count.val then k else (slotAt s i).startIdx := by
  split
  case isTrue e => rw [e, slotAt_appendBit_newest v k room]
  case isFalse ne => rw [slotAt_appendBit_older v k room (by omega)]

/-- After an append the frame in progress starts where it did, or at the bit's sample if that bit is its first. -/
theorem startIdx_appendBit_zero (v : Level) (k : Nat) {s : State} (low : s.count < 10) :
    (slotAt (appendBit v k s) 0).startIdx = if s.count = 0 then k else (slotAt s 0).startIdx := by
  have room : s.count.val < 10 := low
  rw [startIdx_appendBit v k (by omega) s.count.val.zero_le]
  exact if_congr (eq_comm.trans (Fin.ext_iff (b := 0)).symm) rfl rfl

/-- The captured bits start in order of their slots (R32, clause 5). -/
theorem BufferInvariant.starts_mono {s : State} {last : Nat} (b : BufferInvariant s last) {i j : Nat} (hij : i ≤ j)
    (hj : j < s.count.val) : (slotAt s i).startIdx ≤ (slotAt s j).startIdx := by
  have small : s.count.val ≤ 10 := b.countAtMostTen
  induction j, hij using Nat.le_induction with
  | base => exact le_rfl
  | succ j _ ih => exact (ih (by omega)).trans (b.startsIncrease ⟨j, by omega⟩ hj).le

/-- A captured bit starts no later than the last sample. -/
theorem BufferInvariant.start_le_last {s : State} {last : Nat} (b : BufferInvariant s last) {i : Nat} (hi : i < s.count.val) :
    (slotAt s i).startIdx ≤ last :=
  (b.starts_mono (by omega : i ≤ s.count.val - 1) (by omega)).trans (b.capturedBefore (by omega : 0 < s.count.val))

/-- The records of the frame that the eleventh bit completes start no earlier than its start bit and no later than that bit's
sample. -/
theorem BufferInvariant.start_of_mem_completed {s : State} {last : Nat} (b : BufferInvariant s last) (ten : s.count = 10)
    {v : Level} {k : Nat} (later : last < k) {r : Record} (h : r ∈ frameRecords (synthesizeStopEnd (appendBit v k s))) :
    (slotAt s 0).startIdx ≤ r.startIdx ∧ r.startIdx ≤ k := by
  have hc : s.count.val = 10 := congrArg Fin.val ten
  obtain ⟨i, hi, e⟩ := exists_slot_of_mem_frameRecords h
  rw [startIdx_synthesizeStopEnd, startIdx_appendBit v k (by omega) (by omega)] at e
  rw [e]
  split
  case isTrue => exact ⟨(b.start_le_last (by omega)).trans later.le, le_rfl⟩
  case isFalse => exact ⟨b.starts_mono i.zero_le (by omega), (b.start_le_last (by omega)).trans later.le⟩

/-! ### Every step on a sample keeps the output behind -/

/-- On a sample in order every record already out starts before the sample. -/
theorem OutputBehind.before_sample {p : State} (behind : OutputBehind p) (order : p.prevValid = true → p.lastIdx < p.smp.idx) :
    ∀ q ∈ p.out, q.startIdx < p.smp.idx := fun q hq =>
  (behind.lastSample q hq).trans_lt (order (behind.seen (List.ne_nil_of_mem hq)))

/-- A sampling transition emits nothing or a completed frame, which starts after every record already out. -/
theorem sampleBit_emits_in_order (stay trail : Phase) {p : State} (b : BufferInvariant p p.lastIdx) (behind : OutputBehind p)
    (later : p.lastIdx < p.smp.idx) :
    ∃ l : List Record, (sampleBit stay trail p).out = p.out ++ l ∧
      ∀ r ∈ l, r.startIdx ≤ p.smp.idx ∧ ∀ q ∈ p.out, q.startIdx < r.startIdx := by
  rcases sampleBit_cases stay trail p with ⟨-, e⟩ | ⟨-, -, e⟩ | ⟨ten, e⟩ | ⟨-, -, e⟩ <;> rw [e]
  case inr.inr.inl =>
    refine ⟨frameRecords (synthesizeStopEnd (appendBit p.smp.dat p.smp.idx p)), ?_, fun r hr => ?_⟩
    · rw [setPhase_out, finalize_eq, synthesizeStopEnd_eq, appendBit_eq]
    · obtain ⟨afterStart, beforeSample⟩ := b.start_of_mem_completed ten later hr
      exact ⟨beforeSample, fun q hq => (behind.frame (by simp [ten]) q hq).trans_le afterStart⟩
  all_goals exact ⟨[], by simp, by simp⟩

/-- The records a move emits start no later than its sample and after every record already out: a frame's at its start bit or
later, an `ack` at the start of its ACK. -/
theorem Moves.emits_in_order {p u : State} (m : Moves p u) (inv : Invariant p) (behind : OutputBehind p)
    (order : p.prevValid = true → p.lastIdx < p.smp.idx) :
    ∃ l : List Record, u.out = p.out ++ l ∧ ∀ r ∈ l, r.startIdx ≤ p.smp.idx ∧ ∀ q ∈ p.out, q.startIdx < r.startIdx := by
  cases m with
  | sampleHtod hv hp edge | sampleDtoh hv hp edge =>
    exact sampleBit_emits_in_order _ _ (invariant_iff.mp inv).1 behind (order hv)
  | endAck hv hp edge =>
    refine ⟨_, rfl, fun r hr => ?_⟩
    rw [List.mem_singleton.mp hr]
    exact ⟨(inv.ackBefore hp).trans (order hv).le, behind.ack hp⟩
  | _ => exact ⟨[], by simp, by simp⟩

/-- Nothing is captured while the block detects (R32, clause 6). -/
theorem Invariant.count_of_detect {s : State} (inv : Invariant s) (hp : s.phase = .detect) : s.count = 0 := by
  by_contra some
  rcases inv.r32.capturingPhase (Fin.pos_iff_ne_zero.mpr some) with h | h <;> simp [hp] at h

/-- A move that leaves a frame in progress emits nothing, and that frame starts where it did or, if the move began it, at the
move's sample. -/
theorem Moves.frame_in_progress {p u : State} (m : Moves p u) (inv : Invariant p) (pos : 0 < u.count) :
    u.out = p.out ∧ (slotAt u 0).startIdx = if p.count = 0 then p.smp.idx else (slotAt p 0).startIdx := by
  have nonzero : u.count ≠ 0 := Fin.pos_iff_ne_zero.mp pos
  cases m with
  | startDtoh hv hp noFall edge =>
    have zero := inv.count_of_detect hp
    rcases startDeviceToHost_cases zero with e | ⟨-, e⟩ <;> rw [e] at nonzero ⊢
    · exact absurd zero nonzero
    · refine ⟨by simp, ?_⟩
      rw [slotAt_setPhase, startIdx_appendBit_zero _ _ (by simp [zero])]
      simp [zero]
  | sampleHtod hv hp edge | sampleDtoh hv hp edge =>
    obtain ⟨-, e⟩ | ⟨zero, -, e⟩ | ⟨-, e⟩ | ⟨low, -, e⟩ := sampleBit_cases _ _ p <;> rw [e] at nonzero ⊢
    · exact ⟨rfl, (if_neg nonzero).symm⟩
    · exact absurd zero nonzero
    · exact absurd rfl nonzero
    · exact ⟨appendBit_out .., startIdx_appendBit_zero _ _ low⟩
  | endAck hv hp edge => exact absurd (inv.r32.htodPostFrame (by simp [hp])).1 nonzero
  | _ => exact ⟨rfl, (if_neg nonzero).symm⟩

/-- A move that leaves an ACK started emits nothing, and that ACK starts where it did or, if the move began it, at the move's
sample (R110). -/
theorem Moves.ack_in_progress {p u : State} (m : Moves p u) (hu : u.phase = .ackWaitClk) :
    u.out = p.out ∧ u.ackStart = if p.phase = .ackWaitClk then p.ackStart else p.smp.idx := by
  cases m with
  | first hv hp | hold hv unfired => exact ⟨rfl, (if_pos hu).symm⟩
  | startAck hv hp edge => exact ⟨rfl, by simp [hp]⟩
  | sampleHtod hv hp edge | sampleDtoh hv hp edge =>
    rw [sampleBit_phase] at hu
    split_ifs at hu
  | _ => cases hu

/-- A move on a sample in order, and the wrapper's load, keep the output behind whatever is still to be emitted. -/
theorem Moves.outputBehind {p u : State} (m : Moves p u) (inv : Invariant p) (behind : OutputBehind p)
    (order : p.prevValid = true → p.lastIdx < p.smp.idx) : OutputBehind (loadPrevious u) := by
  have before := behind.before_sample order
  refine ⟨fun _ => rfl, ?_, fun pos => ?_, fun hu => ?_⟩
  · obtain ⟨l, out, emitted⟩ := m.emits_in_order inv behind order
    rw [loadPrevious_out, loadPrevious_lastIdx, m.smp, out]
    exact List.forall_mem_append.mpr ⟨fun q hq => (before q hq).le, fun r hr => (emitted r hr).1⟩
  · obtain ⟨out, start⟩ := m.frame_in_progress inv pos
    have occupied := ((m.bufferInvariant inv order).occupancy 0).mpr pos
    rw [loadPrevious_out, slotAt_loadPrevious (i := 0) (by omega) occupied, out, start]
    split
    case isTrue => exact before
    case isFalse some => exact behind.frame (Fin.pos_iff_ne_zero.mpr some)
  · obtain ⟨out, start⟩ := m.ack_in_progress hu
    rw [loadPrevious_out, loadPrevious_ackStart, out, start]
    split
    case isTrue waiting => exact behind.ack waiting
    case isFalse => exact before

/-- Presenting a sample leaves the registers and the records that the output is compared with alone. -/
theorem OutputBehind.presentSample {s : State} (behind : OutputBehind s) (x : Sample) (rest : List Input) :
    OutputBehind (presentSample x rest s) :=
  ⟨behind.seen, behind.lastSample, behind.frame, behind.ack⟩

/-- Settles O44: a step on a sample is a move and the wrapper's load; what the move emits starts after the records already out, and
the output stays behind. -/
theorem groupsLeaveInOrder : Obligations.GroupsLeaveInOrder := by
  intro s t x rest inv behind hin h
  obtain ⟨acc, u, m, rfl⟩ := (step_sample_iff hin).mp h
  have inv' : Invariant (presentSample x rest s) := inv.of_same rfl rfl rfl rfl rfl rfl rfl
  have behind' := behind.presentSample x rest
  obtain ⟨l, out, emitted⟩ := m.emits_in_order inv' behind' acc.inOrder
  exact ⟨m.outputBehind inv' behind' acc.inOrder, l, out, fun r hr => (emitted r hr).2⟩

end Sys2Proof.Machine
end

section
/-! Proofs of the statements about the encodings (30_encoding.md). A possible selector is one that some state and sample form,
and what such a state selects is said by the wait conditions; with `decode_encode` this gives the decoder's three answers,
`decode_cases`, and the statements about selectors are read off it. The payloads of a frame are the values of its slots, and the
records of a step are said once in `Moves.emits`. -/

namespace Sys2Proof

/-! ### Codes and fields, read the other way -/

@[simp] theorem Phase.code_ofCode : ∀ c : BitVec 3, (Phase.ofCode c).code = c := by decide

@[simp] theorem EdgeOpt.code_ofCode : ∀ c : BitVec 1, (EdgeOpt.ofCode c).code = c := by decide

@[simp] theorem Direction.ofCode_code (d : Direction) : Direction.ofCode d.code = d := by cases d <;> rfl

@[simp] theorem Category.ofCode_code (c : Category) : Category.ofCode c.code = c := by cases c <;> rfl

theorem Phase.ofCode_eq_iff {c : BitVec 3} {p : Phase} : Phase.ofCode c = p ↔ c = p.code :=
  ⟨fun h => by rw [← h, code_ofCode], fun h => by rw [h, ofCode_code]⟩

theorem Edge.eq_none {e : Edge} (rise : e ≠ .rise) (fall : e ≠ .fall) : e = .none := by
  cases e <;> trivial

theorem ofBool_getLsbD_eq_extractLsb' {n : Nat} (x : BitVec n) (k : Nat) :
    BitVec.ofBool (x.getLsbD k) = x.extractLsb' k 1 := by
  ext i hi
  simp [Nat.lt_one_iff.mp hi]

/-- The fields of R62 lie side by side and leave out no bit: packing what was unpacked gives the selector back. -/
@[simp] theorem packFields_unpackFields (ts : Selector) : packFields (unpackFields ts) = ts := by
  simp only [packFields, unpackFields, Phase.code_ofCode, EdgeOpt.code_ofCode, ofBool_getLsbD_eq_extractLsb']
  repeat rw [BitVec.extractLsb'_append_extractLsb'_eq_extractLsb' (by rfl)]
  exact BitVec.extractLsb'_eq_self

/-- The four edge bits of a selector are the low ones (R62). -/
theorem extractLsb'_edges_ne_zero_iff (ts : Selector) :
    ts.extractLsb' 0 4 ≠ 0#4 ↔
      ts.getLsbD 3 = true ∨ ts.getLsbD 2 = true ∨ ts.getLsbD 1 = true ∨ ts.getLsbD 0 = true := by
  have bits : ∀ e : BitVec 4,
      e ≠ 0#4 ↔ e.getLsbD 3 = true ∨ e.getLsbD 2 = true ∨ e.getLsbD 1 = true ∨ e.getLsbD 0 = true := by decide
  simpa using bits (ts.extractLsb' 0 4)

/-- The selectors of R64's first class, bit by bit. -/
theorem impossible_unpackFields_iff (ts : Selector) :
    (unpackFields ts).impossible = true ↔
      (ts.getLsbD 3 = true ∧ ts.getLsbD 2 = true) ∨ (ts.getLsbD 1 = true ∧ ts.getLsbD 0 = true) ∨
        (ts.getLsbD 9 = false ∧ ts.extractLsb' 0 4 ≠ 0#4) := by
  rw [extractLsb'_edges_ne_zero_iff]
  simp [Fields.impossible, unpackFields, or_assoc]

/-- The selectors of R64's second class, bit by bit. -/
theorem unreachable_unpackFields_iff (ts : Selector) :
    (unpackFields ts).unreachable = true ↔ ts.getLsbD 9 = false ∧ ts.extractLsb' 6 3 ≠ 0#3 := by
  simp [Fields.unreachable, unpackFields, Phase.ofCode_eq_iff, Phase.code]

/-- Settles O3: `decode_encode`, a case for each of the fourteen constructors. -/
theorem decodeOfEncode : Obligations.DecodeOfEncode := decode_encode

/-- Settles O1: each selector runs through the opcode map. -/
theorem specSelectorsDecode : Obligations.SpecSelectorsDecode := by
  unfold Obligations.SpecSelectorsDecode
  decide

end Sys2Proof

namespace Sys2Proof.Machine

/-- Settles O2: the tables and the default configuration word are closed facts, the way back is the codes' own lemmas. -/
theorem codeTables : Obligations.CodeTables :=
  ⟨rfl, rfl, rfl, rfl, Phase.ofCode_code, Direction.ofCode_code, EdgeOpt.ofCode_code, Category.ofCode_code, fun _ _ => rfl, rfl⟩

/-! ### The transition a state selects -/

/-- `HOLD` is awaited only where the wait condition does not fire, `DETECT.DR` and `DETECT.DF` only without a clock fall. -/
theorem awaitedTransition_wellFormed (s : State) : (awaitedTransition s).wellFormed = true := by
  cases hp : s.phase <;> simp only [awaitedTransition, hp]
  case reserved => rfl
  case htodBit => cases s.optHtodEdge <;> split_ifs <;> simp_all [Instr.wellFormed, Phase.fires, EdgeOpt.edge]
  case dtohBit => cases s.optDtohEdge <;> split_ifs <;> simp_all [Instr.wellFormed, Phase.fires, EdgeOpt.edge]
  all_goals split_ifs <;> simp_all [Instr.wellFormed, Phase.fires, Edge.eq_none]

/-- The awaited transition's pattern and free bits are the fields the state forms. -/
theorem awaitedTransition_toFields {s : State} (hv : s.prevValid = true) :
    (awaitedTransition s).toFields = selectorFields s := by
  rw [selectorFields_of_prevValid hv]
  cases hp : s.phase <;> simp only [awaitedTransition, hp, clockEdge, dataEdge]
  case reserved => rfl
  all_goals split_ifs <;> simp_all [Instr.toFields]

/-- The transition that a state selects on the sample at its ports: the awaited one, or `INIT` on the first sample (R102). -/
def selectedTransition (s : State) : Instr :=
  if s.prevValid then awaitedTransition s else .init s.optHtodEdge s.optDtohEdge

theorem selectedTransition_wellFormed (s : State) : (selectedTransition s).wellFormed = true := by
  unfold selectedTransition
  split
  case isTrue => exact awaitedTransition_wellFormed s
  case isFalse => rfl

theorem selectedTransition_toFields {s : State} (first : s.prevValid = false → s.phase = .detect) :
    (selectedTransition s).toFields = selectorFields s := by
  cases hv : s.prevValid
  case true => simp [selectedTransition, hv, awaitedTransition_toFields]
  case false =>
    simp [selectedTransition, selectorFields, Instr.toFields, clockRises, clockFalls, dataRises, dataFalls, hv, first hv]

theorem encode_selectedTransition {s : State} (first : s.prevValid = false → s.phase = .detect) :
    encode (selectedTransition s) = selector s := by
  rw [encode, selectedTransition_toFields first, selector]

/-- The opcode map decodes a formed selector to the transition that the wait conditions say (R55, R63). -/
theorem decode_selector {s : State} (first : s.prevValid = false → s.phase = .detect) :
    decode (selector s) = .instr (selectedTransition s) := by
  rw [← encode_selectedTransition first]
  exact decode_encode _ (selectedTransition_wellFormed s)

/-- `RSVD.PHASE` is what the reserved phase selects, and no other phase selects it (R114). -/
theorem selectedTransition_eq_rsvdPhase_iff (s : State) :
    (∃ oh od clk dat, selectedTransition s = .rsvdPhase oh od clk dat) ↔ s.prevValid = true ∧ s.phase = .reserved := by
  cases hv : s.prevValid
  case false => simp [selectedTransition, hv]
  case true =>
    cases hp : s.phase <;> simp only [selectedTransition, awaitedTransition, hv, hp, if_true]
    case reserved => simp
    all_goals split_ifs <;> simp

/-- Settles O7: the selected transition is the awaited one once a sample has been seen, and `INIT` before that. -/
theorem selectionFollowsWaitConditions : Obligations.SelectionFollowsWaitConditions := by
  intro s
  refine ⟨fun hv => ?_, fun hv hp => ?_⟩
  · rw [decode_selector (by simp [hv]), selectedTransition, if_pos hv]
  · rw [decode_selector fun _ => hp, selectedTransition, if_neg (by simp [hv])]

/-! ### Every possible selector is formed by a state -/

/-- A state that forms the given fields, if any does (R73): a falling line was at 1 and is at 0, a rising one the other way. -/
def formingState (f : Fields) : State :=
  { State.reset with
    phase := f.ph, prevClk := f.cf, prevDat := f.df, prevValid := f.pv, optHtodEdge := f.oh, optDtohEdge := f.od,
    smp := { idx := 0, clk := f.cr, dat := f.dr } }

/-- Fields that R64 does not call impossible are those of some state and sample. -/
theorem selectorFields_formingState {f : Fields} (possible : f.impossible = false) : selectorFields (formingState f) = f := by
  obtain ⟨pv, ph, oh, od, cr, cf, dr, df⟩ := f
  cases pv
  case false => simp_all [Fields.impossible, selectorFields, formingState, clockRises, clockFalls, dataRises, dataFalls]
  case true =>
    have line : ∀ r f : Bool, (r && f) = false → (!f && r) = r ∧ (f && !r) = f := by decide
    obtain ⟨clk, dat⟩ : (cr && cf) = false ∧ (dr && df) = false := by simpa [Fields.impossible] using possible
    simp [selectorFields, formingState, clockRises, clockFalls, dataRises, dataFalls, line _ _ clk, line _ _ dat]

theorem selector_formingState {ts : Selector} (possible : (unpackFields ts).impossible = false) :
    selector (formingState (unpackFields ts)) = ts := by
  rw [selector, selectorFields_formingState possible, packFields_unpackFields]

theorem formingState_first {f : Fields} (reachable : f.unreachable = false) :
    (formingState f).prevValid = false → (formingState f).phase = .detect := by
  simpa [formingState, Fields.unreachable] using reachable

/-- The three answers of the decoder: R64's two classes, and otherwise the transition that a state forming the selector selects. -/
theorem decode_cases (ts : Selector) :
    ((unpackFields ts).impossible = true ∧ decode ts = .reject .impossible) ∨
    ((unpackFields ts).impossible = false ∧ (unpackFields ts).unreachable = true ∧ decode ts = .reject .unreachable) ∨
    ((unpackFields ts).impossible = false ∧ (unpackFields ts).unreachable = false ∧
      decode ts = .instr (selectedTransition (formingState (unpackFields ts)))) := by
  cases possible : (unpackFields ts).impossible
  case true => exact .inl ⟨rfl, by simp [decode, possible]⟩
  cases reachable : (unpackFields ts).unreachable
  case true => exact .inr (.inl ⟨rfl, rfl, by simp [decode, possible, reachable]⟩)
  refine .inr (.inr ⟨rfl, rfl, ?_⟩)
  have dec := decode_selector (formingState_first reachable)
  rwa [selector_formingState possible] at dec

/-- Settles O4: the decoded transition is the one that a state forming the selector selects, whose encoding is the selector. -/
theorem encodeOfDecode : Obligations.EncodeOfDecode := by
  intro ts i h
  rcases decode_cases ts with ⟨-, e⟩ | ⟨-, -, e⟩ | ⟨possible, reachable, e⟩ <;> rw [e] at h <;> cases h
  refine ⟨selectedTransition_wellFormed _, ?_⟩
  rw [encode_selectedTransition (formingState_first reachable), selector_formingState possible]

/-- Settles O5: the classes are the three answers of the decoder, and `RSVD.PHASE` is what the reserved phase selects. -/
theorem selectorClasses : Obligations.SelectorClasses := by
  intro ts impossible
  have imp : impossible ↔ (unpackFields ts).impossible = true := (impossible_unpackFields_iff ts).symm
  have unr := unreachable_unpackFields_iff ts
  have reach : (unpackFields ts).unreachable = false ↔ ts.getLsbD 9 = true ∨ ts.extractLsb' 6 3 = 0#3 := by
    rw [← Bool.not_eq_true, unr, not_and_or, Bool.not_eq_false, not_not]
  have reserved : (unpackFields ts).ph = .reserved ↔ ts.extractLsb' 6 3 = 7#3 := Phase.ofCode_eq_iff
  have seen : ts.getLsbD 9 = (unpackFields ts).pv := rfl
  rw [imp, ← unr, ← reach, ← reserved, seen]
  rcases decode_cases ts with ⟨h, e⟩ | ⟨h, hu, e⟩ | ⟨h, hu, e⟩
  · simp [h, e]
  · have first : (unpackFields ts).pv = false := (unr.mp hu).1
    simp [h, hu, e, first]
  · have rsvd := selectedTransition_eq_rsvdPhase_iff (formingState (unpackFields ts))
    simp only [h, hu, e, DecodeResult.instr.injEq, rsvd]
    simp [formingState]

/-! ### The word and its parity, bit by bit -/

theorem levelPayload_eq : ∀ v : Level, levelPayload v = 0#7 ++ BitVec.ofBool v := by decide

theorem sum_shiftLeft_lt (f : Nat → Bool) (n : Nat) : ((List.range n).map fun j => (f j).toNat <<< j).sum < 2 ^ n := by
  induction n with
  | zero => simp
  | succ n ih =>
    have bit : (f n).toNat <<< n ≤ 2 ^ n := by cases f n <;> simp [Nat.shiftLeft_eq]
    rw [List.sum_range_succ]
    omega

/-- A sum of bits shifted to their places holds each bit in its place. -/
theorem testBit_sum_shiftLeft (f : Nat → Bool) (n i : Nat) :
    (((List.range n).map fun j => (f j).toNat <<< j).sum).testBit i = (decide (i < n) && f i) := by
  induction n with
  | zero => simp
  | succ n ih =>
    rw [List.sum_range_succ, Nat.add_comm, Nat.shiftLeft_eq, Nat.mul_comm,
      Nat.testBit_two_pow_mul_add _ (sum_shiftLeft_lt f n), ih, Nat.testBit_bool_toNat]
    rcases Nat.lt_trichotomy i n with lt | rfl | gt
    · simp [lt, Nat.lt_succ_of_lt lt]
    · simp
    · simp [gt.not_gt, Nat.sub_ne_zero_of_lt gt, show ¬ i < n + 1 by omega]

/-- Bit `i` of the word is the value of slot `i + 1` (R42, R89). -/
theorem getLsbD_assembleWord (s : State) {i : Nat} (hi : i < 8) : (assembleWord s).getLsbD i = (slotAt s (i + 1)).value := by
  rw [assembleWord, BitVec.getLsbD_ofNat, testBit_sum_shiftLeft fun j => (slotAt s (j + 1)).value]
  simp [hi]

/-- R90's choice counts the 1s among the nine bits of data and parity. -/
theorem parityCategory_eq (s : State) :
    parityCategory s =
      if ((List.range 9).map fun i => (slotAt s (i + 1)).value.toNat).sum % 2 = 1 then .parityOk else .parityErr := by
  have ones : popcount (assembleWord s) = ((List.range 8).map fun i => (slotAt s (i + 1)).value.toNat).sum := by
    refine congrArg List.sum (List.map_congr_left fun i hi => ?_)
    rw [getLsbD_assembleWord s (List.mem_range.mp hi)]
  simp [parityCategory, parityOk, ones, List.sum_range_succ _ 8]

/-! ### The payloads of a frame -/

/-- What the records of a frame show (R59, R91), said of the values of the eleven slots. -/
theorem frameRecords_payloads {s : State} {v : Fin 11 → Level} (h : ∀ i : Fin 11, (slotAt s i).value = v i) :
    (frameRecords s).map (fun r => (r.cat, r.payload)) =
      (List.finRange 11).map (fun i => (Category.bit, 0#7 ++ BitVec.ofBool (v i))) ++
        [(.startBit, 0#7 ++ BitVec.ofBool (v 0)),
         (.word, BitVec.ofNat 8 ((List.finRange 8).map fun i : Fin 8 => (v ⟨i.val + 1, by omega⟩).toNat * 2 ^ i.val).sum),
         (if ((List.finRange 9).map fun i : Fin 9 => (v ⟨i.val + 1, by omega⟩).toNat).sum % 2 = 1 then .parityOk
          else .parityErr, 0#7 ++ BitVec.ofBool (v 9)),
         (.stopBit, 0#7 ++ BitVec.ofBool (v 10))] := by
  simp [frameRecords, slotRecord, wordRecord, assembleWord, parityCategory_eq, Nat.shiftLeft_eq, ← h, levelPayload_eq,
    ← List.map_coe_finRange_eq_range, Function.comp_def]

/-- What R59 and C8 say of every record: it is no `data-bit`, it shows one level unless it is a `word`, and an `ack` shows 0. -/
def PayloadLegal (r : Record) : Prop :=
  r.cat ≠ .dataBit ∧ (r.cat ≠ .word → r.payload = 0#8 ∨ r.payload = 1#8) ∧ (r.cat = .ack → r.payload = 0#8)

theorem payloadLegal_slotRecord {cat : Category} (notData : cat ≠ .dataBit) (notAck : cat ≠ .ack) (x : Slot) :
    PayloadLegal (slotRecord cat x) := by
  have level : ∀ v : Level, levelPayload v = 0#8 ∨ levelPayload v = 1#8 := by decide
  exact ⟨notData, fun _ => level x.value, fun isAck => absurd isAck notAck⟩

/-- Every record of a frame but the `word` is one over a slot (R91). -/
theorem payloadLegal_of_mem_frameRecords {s : State} {r : Record} (h : r ∈ frameRecords s) : PayloadLegal r := by
  simp only [frameRecords, List.mem_append, List.mem_map, List.mem_range, List.mem_cons, List.not_mem_nil, or_false] at h
  rcases h with ⟨i, -, rfl⟩ | rfl | rfl | rfl | rfl
  · exact payloadLegal_slotRecord (by decide) (by decide) _
  · exact payloadLegal_slotRecord (by decide) (by decide) _
  · exact ⟨nofun, fun notWord => absurd rfl notWord, nofun⟩
  · unfold parityCategory
    split <;> exact payloadLegal_slotRecord (by decide) (by decide) _
  · exact payloadLegal_slotRecord (by decide) (by decide) _

/-- Stop-end synthesis changes no value (R86). -/
@[simp] theorem value_synthesizeStopEnd (s : State) (i : Nat) :
    (slotAt (synthesizeStopEnd s) i).value = (slotAt s i).value := by
  rw [synthesizeStopEnd, setSlotEnd, slotAt_putSlot (by omega)]
  split
  case isTrue e => rw [e]
  case isFalse => rfl

/-- The eleventh bit leaves the values of the ten before it as they were (R82, R84, R86). -/
theorem value_completed (v : Level) (k : Nat) {s : State} (ten : s.count = 10) (i : Fin 11) :
    (slotAt (synthesizeStopEnd (appendBit v k s)) i).value = if i.val < 10 then (slotAt s i).value else v := by
  have hc : s.count.val = 10 := congrArg Fin.val ten
  rw [value_synthesizeStopEnd]
  split
  case isTrue older => rw [slotAt_appendBit_older v k (by omega) (by omega)]
  case isFalse newest => rw [show i.val = s.count.val by omega, slotAt_appendBit_newest v k (by omega)]

/-! ### The records of a step -/

/-- A DtoH start completes no frame, whatever the count. -/
theorem startDeviceToHost_count_ne_zero {s : State} (ten : s.count = 10) : (startDeviceToHost s).count ≠ 0 := by
  obtain ⟨-, e⟩ | ⟨zero, -⟩ | ⟨-, e⟩ | ⟨low, -⟩ := capture_cases s.smp.dat s.smp.idx (setDir .deviceToHost s)
  · simp [startDeviceToHost, e, ten]
  · simp [ten] at zero
  · rw [startDeviceToHost, e, setPhase_count, synthesizeStopEnd_eq, appendBit_count, setDir_count, ten]
    decide
  · simp [ten] at low

/-- What a move emits: nothing, and then it completes no frame; the frame that the eleventh bit completes; or an `ack`, with the
count as it was. -/
theorem Moves.emits {p u : State} (m : Moves p u) :
    (u.out = p.out ∧ (p.count = 10 → u.count ≠ 0)) ∨
    (p.count = 10 ∧ u.count = 0 ∧ u.out = p.out ++ frameRecords (synthesizeStopEnd (appendBit p.smp.dat p.smp.idx p))) ∨
    (u.count = p.count ∧
      u.out = p.out ++ [{ cat := .ack, startIdx := p.ackStart, endIdx := p.smp.idx, payload := 0x00#8 }]) := by
  cases m with
  | startDtoh hv hp noFall edge => exact .inl ⟨by simp, startDeviceToHost_count_ne_zero⟩
  | sampleHtod hv hp edge | sampleDtoh hv hp edge =>
    obtain ⟨-, e⟩ | ⟨-, -, e⟩ | ⟨ten, e⟩ | ⟨low, -, e⟩ := sampleBit_cases _ _ p <;> rw [e]
    · exact .inl ⟨rfl, fun ten => by simp [ten]⟩
    · exact .inl ⟨rfl, fun ten => by simp [ten]⟩
    · refine .inr (.inl ⟨ten, rfl, ?_⟩)
      rw [setPhase_out, finalize_eq, synthesizeStopEnd_eq, appendBit_eq]
    · exact .inl ⟨by simp, fun ten => by simp [ten] at low⟩
  | endAck hv hp edge => exact .inr (.inr ⟨rfl, rfl⟩)
  | _ => exact .inl ⟨rfl, fun ten => by simp [ten]⟩

/-- A step that takes no sample emits nothing. -/
theorem step_out_of_no_sample {s t : State} (h : step s = .next t) (unsampled : ∀ x rest, s.input ≠ .sample x :: rest) :
    t.out = s.out := by
  match hin : s.input with
  | .sample x :: rest => exact absurd hin (unsampled x rest)
  | [] | .config _ _ :: _ | .reset :: _ =>
    simp only [step, hin, Host.Outcome.next.injEq] at h
    rw [← h]
    rfl

/-- Settles O35: a step emits nothing, an `ack`, or the records of the completed frame, which show the values of its eleven slots:
the ten captured before, and the sample's data level. -/
theorem recordPayloads : Obligations.RecordPayloads := by
  intro s t h
  by_cases sampled : ∃ x rest, s.input = .sample x :: rest
  case neg =>
    simp only [not_exists] at sampled
    exact ⟨[], by simp [step_out_of_no_sample h sampled], by simp, fun x rest _ hin => absurd hin (sampled x rest)⟩
  obtain ⟨x, rest, hin⟩ := sampled
  obtain ⟨-, u, m, rfl⟩ := (step_sample_iff hin).mp h
  rcases m.emits with ⟨out, unfinished⟩ | ⟨ten, -, out⟩ | ⟨same, out⟩
  · exact ⟨[], by simp [out], by simp, fun _ _ _ _ ten _ zero => absurd zero (unfinished ten)⟩
  · refine ⟨_, out, fun r hr => payloadLegal_of_mem_frameRecords hr, ?_⟩
    intro y rest' b hin' _ captured _ v
    obtain ⟨rfl, rfl⟩ : x = y ∧ rest = rest' := by simpa [hin] using hin'
    refine frameRecords_payloads (v := v) fun i => ?_
    rw [value_completed _ _ ten]
    dsimp only [v]
    split
    case isTrue older => rw [slotAt_presentSample, slotAt_of_getElem (by omega) (captured ⟨i, older⟩)]
    case isFalse => rfl
  · refine ⟨_, out, by simp, fun _ _ _ _ ten _ zero => ?_⟩
    rw [loadPrevious_count, same, presentSample_count, ten] at zero
    cases zero

end Sys2Proof.Machine
end

section
/-! Proofs of the statements about the interface (40_interface.md). The bits of a formed selector are read off its unpacked fields,
and a step on a sample faults exactly when the wrapper's checks do, with their fault (`step_sample_fault_iff`). -/

namespace Sys2Proof

theorem EdgeOpt.ofCode_eq_iff {c : BitVec 1} {e : EdgeOpt} : EdgeOpt.ofCode c = e ↔ c = e.code :=
  ⟨fun h => by rw [← h, code_ofCode], fun h => by rw [h, ofCode_code]⟩

end Sys2Proof

namespace Sys2Proof.Machine

/-! ### The selector's bits -/

theorem clockRises_iff (s : State) : clockRises s = true ↔ s.prevValid = true ∧ s.prevClk = false ∧ s.smp.clk = true := by
  simp [clockRises, and_assoc]

theorem clockFalls_iff (s : State) : clockFalls s = true ↔ s.prevValid = true ∧ s.prevClk = true ∧ s.smp.clk = false := by
  simp [clockFalls, and_assoc]

theorem dataRises_iff (s : State) : dataRises s = true ↔ s.prevValid = true ∧ s.prevDat = false ∧ s.smp.dat = true := by
  simp [dataRises, and_assoc]

theorem dataFalls_iff (s : State) : dataFalls s = true ↔ s.prevValid = true ∧ s.prevDat = true ∧ s.smp.dat = false := by
  simp [dataFalls, and_assoc]

/-- The formed selector holds each field at its position (R62). -/
theorem unpackFields_selector (s : State) : unpackFields (selector s) = selectorFields s :=
  unpackFields_packFields _

/-- Settles O6: each bit is a field of the unpacked selector, the edge bits are R73's conditions, and each of these asks for a
previous sample. -/
theorem selectorLayout : Obligations.SelectorLayout := by
  intro s
  have fields := unpackFields_selector s
  have clkRise : (selector s).getLsbD 3 = clockRises s := congrArg Fields.cr fields
  have clkFall : (selector s).getLsbD 2 = clockFalls s := congrArg Fields.cf fields
  have datRise : (selector s).getLsbD 1 = dataRises s := congrArg Fields.dr fields
  have datFall : (selector s).getLsbD 0 = dataFalls s := congrArg Fields.df fields
  refine ⟨congrArg Fields.pv fields, Phase.ofCode_eq_iff.mp (congrArg Fields.ph fields),
    EdgeOpt.ofCode_eq_iff.mp (congrArg Fields.oh fields), EdgeOpt.ofCode_eq_iff.mp (congrArg Fields.od fields),
    by rw [clkRise, clockRises_iff], by rw [clkFall, clockFalls_iff], by rw [datRise, dataRises_iff],
    by rw [datFall, dataFalls_iff], fun unseen => ?_⟩
  by_contra edges
  rw [← ne_eq, extractLsb'_edges_ne_zero_iff, clkRise, clkFall, datRise, datFall, clockRises_iff, clockFalls_iff,
    dataRises_iff, dataFalls_iff, unseen] at edges
  simp at edges

/-! ### The wrapper's faults -/

/-- A step on a sample faults exactly when the wrapper's checks do (R101): a sample they pass has a move, so its transition never
faults. -/
theorem step_sample_fault_iff {s : State} {x : Sample} {rest : List Input} (hin : s.input = .sample x :: rest) (f : Fault) :
    step s = .fault f ↔ checkSample (presentSample x rest s) = some f := by
  cases check : checkSample (presentSample x rest s) with
  | some g => simp [step, hin, sampleStep, check, raise]
  | none =>
    have acc : Accepts s x := checkSample_presentSample_eq_none_iff.mp check
    obtain ⟨u, m⟩ := exists_moves (p := presentSample x rest s) acc.phaseLegal acc.firstSample
    simp [step_of_moves hin acc m]

/-- The order of the indices is checked first (R101, R136), so no other check hides its fault. -/
theorem checkSample_eq_inputOrder_iff (p : State) :
    checkSample p = some .inputOrder ↔ p.prevValid = true ∧ p.smp.idx ≤ p.lastIdx := by
  have first : checkSample p = some .inputOrder ↔ outOfOrder p = true := by
    unfold checkSample
    cases outOfOrder p <;> cases outsideReset p <;> simp
  rw [first, outOfOrder, Bool.and_eq_true, decide_eq_true_iff]

/-- Settles O9: the wrapper's first check is R72's, and no field of the selector reads an index. -/
theorem inputOrderFault : Obligations.InputOrderFault := by
  refine ⟨fun s x rest hin => ?_, fun _ _ _ => rfl⟩
  rw [step_sample_fault_iff hin, checkSample_eq_inputOrder_iff, presentSample_prevValid, presentSample_smp,
    presentSample_lastIdx]

/-- Settles O33: with nothing left to present the step is `endOfStream`. -/
theorem endOfStreamLeavesState : Obligations.EndOfStreamLeavesState := by
  intro s hin
  simp only [step, hin, endOfStream]

end Sys2Proof.Machine
end

section
/-! Proofs of the statements about the accumulator (41_bit_accumulator.md). What the eleven slots read after the eleventh capture is
said once, in `slotAt_completed`; what `Finalize` shows of eleven slots is said once, in `frameRecords_eq_recordsOfBits`. The capture
of a whole frame, its records and its spans follow from these two. -/

namespace Sys2Proof.Machine

/-! ### The bit buffer after a capture -/

/-- `Capture` answers `FrameComplete` exactly at the eleventh bit (R87). -/
theorem capture_status_iff (v : Level) (k : Nat) (s : State) : (capture v k s).1 = .frameComplete ↔ s.count = 10 := by
  obtain ⟨full, e⟩ | ⟨zero, -, e⟩ | ⟨ten, e⟩ | ⟨low, -, e⟩ := capture_cases v k s <;> rw [e]
  · exact iff_of_false nofun fun ten => by simp [ten] at full
  · simp [zero]
  · simp [ten]
  · exact iff_of_false nofun low.ne

/-- `Capture` leaves the accumulator alone at a full buffer (R81) and on an idle sample (R83). -/
theorem capture_of_ignored {v : Level} {k : Nat} {s : State} (ignored : 11 ≤ s.count ∨ (s.count = 0 ∧ v = true)) :
    capture v k s = (.needMoreBits, s) := by
  rcases ignored with full | idle
  · simp [capture, full]
  · simp [capture, idle]

/-- `Capture` of one of the first ten bits is an append (R82). -/
theorem capture_of_low {v : Level} {k : Nat} {s : State} (low : s.count < 10) (kept : ¬ (s.count = 0 ∧ v = true)) :
    capture v k s = (.needMoreBits, appendBit v k s) := by
  obtain ⟨full, -⟩ | ⟨zero, idle, -⟩ | ⟨ten, -⟩ | ⟨-, -, e⟩ := capture_cases v k s
  · exact absurd low (by omega)
  · exact absurd ⟨zero, idle⟩ kept
  · exact absurd ten low.ne
  · exact e

/-- `Capture` of the eleventh bit is an append and the stop-end synthesis (R82, R86). -/
theorem capture_of_ten {v : Level} {k : Nat} {s : State} (ten : s.count = 10) :
    capture v k s = (.frameComplete, synthesizeStopEnd (appendBit v k s)) := by
  simp [capture, ten]

theorem getElem_putSlot {i : Nat} (hi : i < 11) (j : Nat) (x : Slot) (s : State) :
    (putSlot j x s).bits[i] = if i = j then some x else s.bits[i] := by
  simp only [putSlot_bits, Vector.getElem_setIfInBounds, eq_comm]

/-- An occupied slot holds what a read of it gives. -/
theorem getElem_of_isSome {s : State} {i : Nat} (hi : i < 11) (occupied : s.bits[i].isSome = true) :
    s.bits[i] = some (slotAt s i) := by
  obtain ⟨x, hx⟩ := Option.isSome_iff_exists.mp occupied
  rw [hx, slotAt_of_getElem hi hx]

/-- An append leaves every slot alone but the newest and the one before it. -/
theorem getElem_appendBit_of_ne (v : Level) (k : Nat) {s : State} {i : Nat} (hi : i < 11) (notNewest : i ≠ s.count.val)
    (notLast : i + 1 ≠ s.count.val) : (appendBit v k s).bits[i] = s.bits[i] := by
  rw [appendBit, setCount_bits, fixPreviousEnd]
  split
  · rw [setSlotEnd, getElem_putSlot hi, if_neg (by omega), getElem_putSlot hi, if_neg notNewest]
  · rw [getElem_putSlot hi, if_neg notNewest]

/-- With the captured slots occupied, an append leaves the buffer that `appendedBits` names (R82, R84). -/
theorem bits_appendBit (v : Level) (k : Nat) {s : State} (room : s.count.val < 11) (occupied : Occupied s s.count.val) :
    (appendBit v k s).bits = appendedBits s.bits s.count.val v k := by
  refine Vector.ext fun i hi => ?_
  rw [appendedBits, Vector.getElem_ofFn]
  by_cases newest : i = s.count.val
  · rw [if_pos newest, getElem_of_isSome hi ((isSome_appendBit v k s hi).mpr (by simp [newest])), newest,
      slotAt_appendBit_newest v k room]
  by_cases last : i + 1 = s.count.val
  · rw [if_neg newest, if_pos last, getElem_of_isSome hi ((isSome_appendBit v k s hi).mpr (by simp [last])),
      slotAt_appendBit_older v k room (by omega), if_pos last, Fin.getElem_fin,
      getElem_of_isSome hi (occupied ⟨i, hi⟩ (show i < s.count.val by omega)), Option.map_some]
  · rw [if_neg newest, if_neg last, getElem_appendBit_of_ne v k hi newest last, Fin.getElem_fin]

/-- What the slots read after stop-end synthesis (R85, R86). -/
theorem slotAt_synthesizeStopEnd (s : State) (i : Nat) :
    slotAt (synthesizeStopEnd s) i =
      if i = 10 then { slotAt s 10 with endIdx := (slotAt s 10).endIdx + bitWidth s } else slotAt s i :=
  slotAt_putSlot (by omega) _ _ _

/-- Which slots are occupied after stop-end synthesis. -/
theorem isSome_synthesizeStopEnd {i : Nat} (hi : i < 11) (s : State) :
    (synthesizeStopEnd s).bits[i].isSome = true ↔ i = 10 ∨ s.bits[i].isSome = true :=
  isSome_putSlot hi _ _ _

/-- The eleven slots that the eleventh capture leaves, read one by one (R82, R84 to R86). -/
theorem slotAt_completed (v : Level) (k : Nat) {s : State} (ten : s.count = 10) {b : Fin 10 → Slot}
    (h : ∀ i : Fin 10, slotAt s i = b i) (i : Fin 11) :
    slotAt (synthesizeStopEnd (appendBit v k s)) i = completedBits b v k i := by
  have hc : s.count.val = 10 := congrArg Fin.val ten
  have newest : slotAt (appendBit v k s) 10 = { value := v, startIdx := k, endIdx := k } := by
    rw [← hc, slotAt_appendBit_newest v k (by omega)]
  have older : ∀ i : Fin 10, slotAt (appendBit v k s) i = { b i with endIdx := if i.val = 9 then k else (b i).endIdx } := by
    intro i
    rw [slotAt_appendBit_older v k (by omega) (by omega), h, hc]
    simp
  have width : bitWidth (appendBit v k s) = (b 2).endIdx - (b 1).endIdx := by
    rw [bitWidth]
    exact congrArg₂ (fun x y => x.endIdx - y.endIdx) (older 2) (older 1)
  rw [slotAt_synthesizeStopEnd, completedBits]
  by_cases stop : i.val = 10
  · rw [if_pos stop, dif_neg (by omega), if_neg (by omega), newest, width]
  rw [if_neg stop, older ⟨i, by omega⟩]
  by_cases parity : i.val = 9
  · rw [dif_neg (by omega), if_pos parity]
    simp [parity]
  · rw [dif_pos (by omega)]
    simp [parity]

/-- The buffer that the eleventh capture leaves. -/
theorem bits_completed (v : Level) (k : Nat) {s : State} (ten : s.count = 10) {b : Fin 10 → Slot}
    (h : ∀ i : Fin 10, s.bits[i.val] = some (b i)) :
    (synthesizeStopEnd (appendBit v k s)).bits = Vector.ofFn fun i => some (completedBits b v k i) := by
  have hc : s.count.val = 10 := congrArg Fin.val ten
  refine Vector.ext fun i hi => ?_
  have occupied : (synthesizeStopEnd (appendBit v k s)).bits[i].isSome = true := by
    rw [isSome_synthesizeStopEnd hi, isSome_appendBit v k s hi, hc]
    by_cases stop : i = 10
    · exact .inl stop
    · exact .inr (.inr (.inr (by rw [h ⟨i, by omega⟩]; rfl)))
  rw [getElem_of_isSome hi occupied, Vector.getElem_ofFn,
    ← slotAt_completed v k ten fun i => slotAt_of_getElem (by omega) (h i)]

/-- Settles O25: the four clauses are the cases of `Capture`, with the buffer of an append and of the eleventh bit said by
`bits_appendBit` and `bits_completed`. -/
theorem captureOperation : Obligations.CaptureOperation := by
  refine fun s v k => ⟨capture_status_iff v k s, capture_of_ignored, fun low kept occupied => ?_, fun b ten captured _ => ?_⟩
  · have room : s.count.val < 10 := low
    rw [capture_of_low low kept, appendBit_eq, bits_appendBit v k (by omega) occupied]
  · rw [capture_of_ten ten]
    change synthesizeStopEnd (appendBit v k s) = _
    rw [synthesizeStopEnd_eq, bits_completed v k ten captured, appendBit_eq, ten]
    rfl

/-! ### The word and its parity -/

/-- Bit `i` of the word is the value of slot `i + 1` (R42). -/
theorem getLsbD_wordOfBits (b : Fin 11 → Slot) (i : Fin 8) : (wordOfBits b).getLsbD i = (b ⟨i + 1, by omega⟩).value := by
  simp only [wordOfBits, BitVec.getLsbD_append]
  fin_cases i <;> simp

/-- The machine's word is the word of the slots it reads (R89). -/
theorem assembleWord_eq_wordOfBits {s : State} {b : Fin 11 → Slot} (h : ∀ i : Fin 11, slotAt s i = b i) :
    assembleWord s = wordOfBits b :=
  BitVec.eq_of_getLsbD_eq fun i hi => by
    rw [getLsbD_assembleWord s hi, getLsbD_wordOfBits b ⟨i, hi⟩, ← h]

/-- The word is the sum of its bits at their places (R89). -/
theorem toNat_assembleWord (s : State) :
    (assembleWord s).toNat = ((List.range 8).map fun i => (slotAt s (i + 1)).value.toNat <<< i).sum := by
  rw [assembleWord, BitVec.toNat_ofNat, Nat.mod_eq_of_lt (sum_shiftLeft_lt (fun i => (slotAt s (i + 1)).value) 8)]

/-- The 1s of the word are the data bits that are 1 (R89, R90). -/
theorem popcount_assembleWord (s : State) :
    popcount (assembleWord s) = ((List.range 8).map fun i => (slotAt s (i + 1)).value.toNat).sum :=
  congrArg List.sum (List.map_congr_left fun i hi => by rw [getLsbD_assembleWord s (List.mem_range.mp hi)])

theorem toNat_xor (x y : Bool) : (x ^^ y).toNat = (x.toNat + y.toNat) % 2 := by
  cases x <;> cases y <;> rfl

/-- The exclusive or of the nine bits of data and parity says whether an odd number of them is 1. -/
theorem oddOnes_iff (b : Fin 11 → Slot) :
    oddOnes b = true ↔ ((List.finRange 9).map fun i : Fin 9 => (b ⟨i.val + 1, by omega⟩).value.toNat).sum % 2 = 1 := by
  rw [← Bool.toNat_eq_one]
  simp [oddOnes, toNat_xor, List.finRange_succ]

/-- Settles O27: the word's sum does not overflow, and bit by bit the word is the data bits. -/
theorem parityValidator : Obligations.ParityValidator := by
  intro s b captured ones
  have slots : ∀ i : Fin 11, slotAt s i = b i := fun i => slotAt_of_getElem i.isLt (captured i)
  have count : popcount (assembleWord s) = ones := by
    simp [popcount_assembleWord, ones, ← slots, ← List.map_coe_finRange_eq_range, Function.comp_def]
  have odd : parityOk (assembleWord s) (slotAt s 9).value = true ↔ (ones + (b 9).value.toNat) % 2 = 1 := by
    rw [parityOk, count, beq_iff_eq]
    exact iff_of_eq (congrArg (fun x : Slot => (ones + x.value.toNat) % 2 = 1) (slots 9))
  refine ⟨?_, count, odd, by rw [parityCategory, if_congr odd rfl rfl]⟩
  simp [toNat_assembleWord, ← slots, Nat.shiftLeft_eq, ← List.map_coe_finRange_eq_range, Function.comp_def]

/-! ### The records of a frame -/

theorem slotRecord_eq_showBit (cat : Category) (x : Slot) : slotRecord cat x = showBit cat x := by
  have level : ∀ v : Level, levelPayload v = if v then 1#8 else 0#8 := by decide
  rw [slotRecord, showBit, level]

/-- The parity category is chosen by the parity of the nine bits of data and parity (R90). -/
theorem parityCategory_eq_oddOnes {s : State} {b : Fin 11 → Slot} (h : ∀ i : Fin 11, slotAt s i = b i) :
    parityCategory s = if oddOnes b then .parityOk else .parityErr := by
  simp [parityCategory_eq, oddOnes_iff, ← h, ← List.map_coe_finRange_eq_range, Function.comp_def]

/-- The machine's fifteen records are those of the slots it reads (R91). -/
theorem frameRecords_eq_recordsOfBits {s : State} {b : Fin 11 → Slot} (h : ∀ i : Fin 11, slotAt s i = b i) :
    frameRecords s = recordsOfBits b := by
  rw [frameRecords, wordRecord, assembleWord_eq_wordOfBits h, parityCategory_eq_oddOnes h, recordsOfBits]
  simp [slotRecord_eq_showBit, ← h, List.range_succ]

/-- Settles O26: the records are those of the eleven slots, whatever their values. -/
theorem finalizeOperation : Obligations.FinalizeOperation := by
  intro s b captured
  rw [finalize_eq, frameRecords_eq_recordsOfBits fun i => slotAt_of_getElem i.isLt (captured i)]
  rfl

/-! ### Eleven captures in a row -/

/-- The state after the first `n` of eleven captures, bit `i` with level `level i` at sample `k i`. -/
def captureFirst (level : Fin 11 → Level) (k : Fin 11 → Nat) (s : State) (n : Nat) : State :=
  ((List.finRange 11).take n).foldl (fun t i => (capture (level i) (k i) t).2) s

theorem captureFirst_succ (level : Fin 11 → Level) (k : Fin 11 → Nat) (s : State) {n : Nat} (hn : n < 11) :
    captureFirst level k s (n + 1) = (capture (level ⟨n, hn⟩) (k ⟨n, hn⟩) (captureFirst level k s n)).2 := by
  simp [captureFirst, List.take_add_one, hn]

/-- Captures change count and buffer only. -/
theorem captureFirst_frame (level : Fin 11 → Level) (k : Fin 11 → Nat) (s : State) {n : Nat} (hn : n ≤ 11) :
    captureFirst level k s n =
      { s with count := (captureFirst level k s n).count, bits := (captureFirst level k s n).bits } := by
  induction n with
  | zero => rfl
  | succ n ih =>
    rw [captureFirst_succ level k s hn, capture_eq, ih (by omega)]

/-- The eleven slots of the frame with these levels and samples: each span ends where the next begins, the stop bit's after one bit
width (R84 to R86). -/
def frameSlots (level : Fin 11 → Level) (k : Fin 11 → Nat) : Fin 11 → Slot := fun i =>
  { value := level i, startIdx := k i,
    endIdx := if h : i.val < 10 then k ⟨i.val + 1, by omega⟩ else k 10 + (k 3 - k 2) }

/-- Slot `i` after `n ≤ 10` of the captures: the frame's, but for the newest, which is still a point (R32, clause 3). -/
def pendingSlot (level : Fin 11 → Level) (k : Fin 11 → Nat) (n : Nat) (i : Fin 11) : Slot :=
  { frameSlots level k i with endIdx := if i.val + 1 = n then k i else (frameSlots level k i).endIdx }

/-- The next capture ends the newest slot where its own begins (R84). -/
theorem pendingSlot_succ (level : Fin 11 → Level) (k : Fin 11 → Nat) {n : Nat} (hn : n < 10) {i : Fin 11} (hi : i.val < n) :
    pendingSlot level k (n + 1) i =
      { pendingSlot level k n i with
        endIdx := if i.val + 1 = n then k ⟨n, by omega⟩ else (pendingSlot level k n i).endIdx } := by
  by_cases last : i.val + 1 = n
  · simp [pendingSlot, frameSlots, last, show i.val < 10 by omega]
  · simp [pendingSlot, last, show i.val ≠ n by omega]

/-- The eleventh bit completes the frame (R84 to R86). -/
theorem completedBits_pendingSlot (level : Fin 11 → Level) (k : Fin 11 → Nat) (i : Fin 11) :
    completedBits (fun j => pendingSlot level k 10 j.castSucc) (level 10) (k 10) i = frameSlots level k i := by
  rw [completedBits]
  split
  case isTrue older => simp [pendingSlot, frameSlots, show i.val ≠ 9 by omega]
  case isFalse =>
    split
    case isTrue parity =>
      obtain rfl : i = 9 := Fin.ext parity
      rfl
    case isFalse =>
      obtain rfl : i = 10 := Fin.ext (show i.val = 10 by omega)
      rfl

/-- `t` has captured the first `n` bits: the count is `n`, and the slots below it are the pending ones. -/
structure CapturedFirst (level : Fin 11 → Level) (k : Fin 11 → Nat) (n : Nat) (t : State) : Prop where
  count : t.count.val = n
  slots : ∀ i : Fin 11, i.val < n → slotAt t i = pendingSlot level k n i

/-- One more of the first ten captures (R82, R84). -/
theorem CapturedFirst.next {level : Fin 11 → Level} (start : level 0 = false) {k : Fin 11 → Nat} {n : Nat} {t : State}
    (captured : CapturedFirst level k n t) (hn : n < 10) :
    CapturedFirst level k (n + 1) (capture (level ⟨n, by omega⟩) (k ⟨n, by omega⟩) t).2 := by
  obtain ⟨rfl, slots⟩ := captured
  have room : t.count.val < 11 := by omega
  have kept : ¬ (t.count = 0 ∧ level ⟨t.count.val, room⟩ = true) := by
    rintro ⟨zero, one⟩
    simp [zero, start] at one
  rw [capture_of_low hn kept]
  refine ⟨appendBit_count_val _ _ room, fun i hi => ?_⟩
  by_cases newest : i.val = t.count.val
  · obtain rfl : i = ⟨t.count.val, room⟩ := Fin.ext newest
    rw [slotAt_appendBit_newest _ _ room]
    simp [pendingSlot, frameSlots]
  · rw [slotAt_appendBit_older _ _ room (by omega), slots i (by omega), pendingSlot_succ level k hn (by omega)]

/-- The first `n ≤ 10` captures from an empty accumulator are appends. -/
theorem capturedFirst_captureFirst {level : Fin 11 → Level} (start : level 0 = false) (k : Fin 11 → Nat) {s : State}
    (empty : s.count = 0) {n : Nat} (hn : n ≤ 10) : CapturedFirst level k n (captureFirst level k s n) := by
  induction n with
  | zero => exact ⟨congrArg Fin.val empty, fun i hi => absurd hi (by omega)⟩
  | succ n ih =>
    rw [captureFirst_succ level k s (by omega)]
    exact (ih (by omega)).next start hn

/-- After eleven captures the slots are the frame's. -/
theorem captureFirst_eleven {level : Fin 11 → Level} (start : level 0 = false) (k : Fin 11 → Nat) {s : State}
    (empty : s.count = 0) (i : Fin 11) : slotAt (captureFirst level k s 11) i = frameSlots level k i := by
  obtain ⟨hc, slots⟩ := capturedFirst_captureFirst start k empty (le_refl 10)
  have ten : (captureFirst level k s 10).count = 10 := Fin.ext hc
  rw [captureFirst_succ level k s (by omega), capture_of_ten ten, ← completedBits_pendingSlot level k i]
  exact slotAt_completed _ _ ten (fun j => slots j.castSucc j.isLt) i

/-- Settles O28: the captures leave the slots of the frame, which `Finalize` shows. -/
theorem elevenCapturesMakeAFrame : Obligations.ElevenCapturesMakeAFrame := by
  intro s w parity stop k empty _ level run frame
  have start : level 0 = false := rfl
  refine ⟨fun i => ?_, ?_, ?_⟩
  · obtain ⟨hc, -⟩ := capturedFirst_captureFirst start k empty (by omega : i.val ≤ 10)
    change (run i.val).count.val = i.val at hc
    rw [capture_status_iff, Fin.ext_iff, Fin.ext_iff, hc]
    rfl
  · refine BitVec.eq_of_getLsbD_eq fun i hi => ?_
    rw [getLsbD_wordOfBits frame ⟨i, hi⟩]
    simp [frame, level, show i + 1 ≤ 8 by omega]
  · have slots : ∀ i : Fin 11, slotAt (run 11) i = frame i := captureFirst_eleven start k empty
    rw [finalize_eq, frameRecords_eq_recordsOfBits slots, show run 11 = _ from captureFirst_frame level k s le_rfl]
    rfl

/-! ### The labels of a word -/

theorem hexDigit_eq_digitChar : ∀ n : Fin 16, hexDigit n = String.ofList [Nat.digitChar n] := by decide

/-- Settles O29: each of the two digits is the core library's. -/
theorem wordRecordLabels : Obligations.WordRecordLabels := by
  intro a b w hh
  have digits : hexByte w = hh := by
    have byte := w.isLt
    rw [hexByte, hexDigit_eq_digitChar ⟨w.toNat / 16, by omega⟩, hexDigit_eq_digitChar ⟨w.toNat % 16, by omega⟩,
      ← String.ofList_append]
    rfl
  rw [← digits]
  rfl

/-! ### The spans of a finalised frame -/

/-- Completing a frame moves the start of none of its first ten bits. -/
theorem startIdx_completedBits (b : Fin 10 → Slot) (v : Level) (k : Nat) (i : Fin 10) :
    (completedBits b v k i.castSucc).startIdx = (b i).startIdx := by
  rw [completedBits]
  split
  case isTrue => rfl
  case isFalse past =>
    have parity : ¬ i.val < 9 := past
    obtain rfl : i = 9 := Fin.ext (show i.val = 9 by omega)
    rfl

/-- Where the ten captured spans meet, the eleven completed ones do (R84). -/
theorem completedBits_meet {b : Fin 10 → Slot} (meet : ∀ i : Fin 9, (b i.castSucc).endIdx = (b i.succ).startIdx) (v : Level)
    (k : Nat) (i : Fin 10) : (completedBits b v k i.castSucc).endIdx = (completedBits b v k i.succ).startIdx := by
  cases i using Fin.lastCases with
  | last => rfl
  | cast i =>
    rw [Fin.succ_castSucc, startIdx_completedBits, ← meet, completedBits]
    exact congrArg Slot.endIdx (dif_pos i.isLt)

/-- Where the captured bits start in order, before the stop bit, and their spans meet, no completed span is empty (R72, R85). -/
theorem completedBits_nonempty {b : Fin 10 → Slot} (meet : ∀ i : Fin 9, (b i.castSucc).endIdx = (b i.succ).startIdx)
    (increase : ∀ i : Fin 9, (b i.castSucc).startIdx < (b i.succ).startIdx) (v : Level) {k : Nat} (later : (b 9).startIdx < k)
    (i : Fin 11) : (completedBits b v k i).startIdx < (completedBits b v k i).endIdx := by
  cases i using Fin.lastCases with
  | last =>
    change k < k + ((b 2).endIdx - (b 1).endIdx)
    have width : (b 1).endIdx < (b 2).endIdx := (meet 1).trans_lt ((increase 2).trans_eq (meet 2).symm)
    omega
  | cast i =>
    rw [completedBits_meet meet, startIdx_completedBits]
    cases i using Fin.lastCases with
    | last => exact later
    | cast i =>
      rw [Fin.succ_castSucc, startIdx_completedBits]
      exact increase i

/-- The first eleven records of a frame are the `bit` records of its slots, in slot order (R91). -/
theorem getElem?_frameRecords (s : State) (i : Fin 11) : (frameRecords s)[i.val]? = some (slotRecord .bit (slotAt s i)) := by
  simp [frameRecords, List.getElem?_append_left]

/-- A step that emits fifteen records takes a sample, and they are the frame that its eleventh bit completes. -/
theorem step_emits_frame {s t : State} {l : List Record} (h : step s = .next t) (out : t.out = s.out ++ l)
    (fifteen : l.length = 15) :
    ∃ x rest, Accepts s x ∧ s.count = 10 ∧
      l = frameRecords (synthesizeStopEnd (appendBit x.dat x.idx (presentSample x rest s))) := by
  by_cases sampled : ∃ x rest, s.input = .sample x :: rest
  case neg =>
    simp only [not_exists] at sampled
    rw [step_out_of_no_sample h sampled, List.self_eq_append_right] at out
    simp [out] at fifteen
  obtain ⟨x, rest, hin⟩ := sampled
  obtain ⟨acc, u, m, rfl⟩ := (step_sample_iff hin).mp h
  have emitted : u.out = s.out ++ l := out
  rcases m.emits with ⟨none, -⟩ | ⟨ten, -, frame⟩ | ⟨-, ack⟩
  · rw [emitted, presentSample_out, List.append_right_eq_self] at none
    simp [none] at fifteen
  · exact ⟨x, rest, acc, ten, List.append_cancel_left (emitted.symm.trans frame)⟩
  · rw [List.append_cancel_left (emitted.symm.trans ack)] at fifteen
    simp at fifteen

/-- A run that has captured a bit has seen a sample (R32, clause 9). -/
theorem Invariant.prevValid_of_captured {s : State} (inv : Invariant s) (captured : s.count ≠ 0) : s.prevValid = true :=
  Bool.eq_true_of_not_eq_false fun first => captured (inv.r32.beforeFirstSample first).2

/-- Settles O43: fifteen records are a completed frame, and the invariant orders the ten slots it was completed from. -/
theorem frameSpans : Obligations.FrameSpans := by
  intro s t l inv h out fifteen
  obtain ⟨x, rest, acc, ten, rfl⟩ := step_emits_frame h out fifteen
  have hc : s.count.val = 10 := congrArg Fin.val ten
  obtain ⟨b, hb⟩ : ∃ b : Fin 10 → Slot, ∀ i : Fin 10, slotAt s i = b i := ⟨_, fun _ => rfl⟩
  have meet : ∀ i : Fin 9, (b i.castSucc).endIdx = (b i.succ).startIdx := fun i => by
    rw [← hb, ← hb]
    exact inv.r32.endsMeetStarts ⟨i, by omega⟩ (show i.val + 1 < _ by omega)
  have increase : ∀ i : Fin 9, (b i.castSucc).startIdx < (b i.succ).startIdx := fun i => by
    rw [← hb, ← hb]
    exact inv.r32.startsIncrease ⟨i, by omega⟩ (show i.val + 1 < _ by omega)
  have later : (b 9).startIdx < x.idx := by
    have before := inv.capturedBefore (by simp [ten])
    rw [hc] at before
    rw [← hb]
    exact before.trans_lt (acc.inOrder (inv.prevValid_of_captured (by simp [ten])))
  have slots := slotAt_completed x.dat x.idx (s := presentSample x rest s) ten hb
  exact ⟨fun i => slotRecord .bit (completedBits b x.dat x.idx i), fun i => ⟨by rw [getElem?_frameRecords, slots], rfl⟩,
    completedBits_meet meet _ _, completedBits_nonempty meet increase _ later, rfl⟩

end Sys2Proof.Machine
end

section
/-! Proofs of the statements about the frame state machine (42_frame_state_machine.md). A step on an accepted sample is one move and
the wrapper's load, so each statement about a step names its move; what the two shared operations of the moves give, the DtoH start
and the sampling transition, is said once for every count. The two statements about runs are inductions: over the steps of two runs
that differ in the direction, and over the pulses that take the machine out of its phase. -/

namespace Sys2Proof.Machine

/-- An accepted sample finds a move. -/
theorem Accepts.exists_moves {s : State} {x : Sample} (acc : Accepts s x) (rest : List Input) :
    ∃ u, Moves (presentSample x rest s) u :=
  Machine.exists_moves acc.phaseLegal acc.firstSample

theorem step_of_config {s : State} {h d : EdgeOpt} {rest : List Input} (hin : s.input = .config h d :: rest) :
    step s = .next (driveConfig h d rest s) := by
  simp only [step, hin]

theorem step_of_reset {s : State} {rest : List Input} (hin : s.input = .reset :: rest) :
    step s = .next (applyReset rest s) := by
  simp only [step, hin]

/-! ### The direction is unobservable -/

theorem fixPreviousEnd_setDir (n k : Nat) (d : Direction) (s : State) :
    fixPreviousEnd n k (setDir d s) = setDir d (fixPreviousEnd n k s) := by
  unfold fixPreviousEnd
  split <;> rfl

theorem appendBit_setDir (v : Level) (k : Nat) (d : Direction) (s : State) :
    appendBit v k (setDir d s) = setDir d (appendBit v k s) :=
  congrArg (setCount (s.count + 1)) (fixPreviousEnd_setDir _ _ d (putSlot _ _ s))

/-- `Capture` neither reads nor writes the direction. -/
theorem capture_setDir (v : Level) (k : Nat) (d : Direction) (s : State) :
    capture v k (setDir d s) = ((capture v k s).1, setDir d (capture v k s).2) := by
  rcases capture_cases v k s with ⟨full, e⟩ | ⟨zero, idle, e⟩ | ⟨ten, e⟩ | ⟨low, kept, e⟩ <;> rw [e]
  · exact capture_of_ignored (.inl full)
  · exact capture_of_ignored (.inr ⟨zero, idle⟩)
  · rw [capture_of_ten (s := setDir d s) ten, appendBit_setDir]
    rfl
  · rw [capture_of_low (s := setDir d s) low kept, appendBit_setDir]

/-- A sampling transition neither reads nor writes the direction (R118). -/
theorem sampleBit_setDir (stay trail : Phase) (d : Direction) (s : State) :
    sampleBit stay trail (setDir d s) = setDir d (sampleBit stay trail s) := by
  simp only [sampleBit, setDir_smp, capture_setDir]
  rcases capture s.smp.dat s.smp.idx s with ⟨_ | _, t⟩ <;> rfl

/-- Whatever direction a state has, its move is the same, and leaves that direction or writes the move's own. -/
theorem Moves.with_dir {p u : State} (m : Moves p u) (d : Direction) :
    ∃ e, (e = d ∨ e = u.dir) ∧ Moves (setDir d p) (setDir e u) := by
  cases m with
  | first hv hp => exact ⟨d, .inl rfl, .first hv hp⟩
  | hold hv unfired => exact ⟨d, .inl rfl, .hold hv unfired⟩
  | startHtod hv hp edge => exact ⟨.hostToDevice, .inr rfl, .startHtod hv hp edge⟩
  | startDtoh hv hp noFall edge =>
    have start : startDeviceToHost (setDir d p) = setDir .deviceToHost (startDeviceToHost p) := by
      rw [startDeviceToHost_frame p]
      exact startDeviceToHost_frame p
    exact ⟨.deviceToHost, .inr (startDeviceToHost_dir p).symm, start ▸ .startDtoh hv hp noFall edge⟩
  | sampleHtod hv hp edge => exact ⟨d, .inl rfl, sampleBit_setDir .. ▸ .sampleHtod hv hp edge⟩
  | sampleDtoh hv hp edge => exact ⟨d, .inl rfl, sampleBit_setDir .. ▸ .sampleDtoh hv hp edge⟩
  | trailHtod hv hp edge => exact ⟨d, .inl rfl, .trailHtod hv hp edge⟩
  | startAck hv hp edge => exact ⟨d, .inl rfl, .startAck hv hp edge⟩
  | endAck hv hp edge => exact ⟨.idle, .inr rfl, .endAck hv hp edge⟩
  | trailDtoh hv hp edge => exact ⟨.idle, .inr rfl, .trailDtoh hv hp edge⟩

/-- No move writes the reserved direction (R23). -/
theorem Moves.dir_legal {p u : State} (m : Moves p u) (legal : p.dir ≠ .reserved) : u.dir ≠ .reserved := by
  by_cases same : u.dir = p.dir
  · rwa [same]
  · rcases m.dir_writer same with ⟨-, -, e⟩ | ⟨-, -, e⟩ | ⟨-, -, e⟩ <;> simp [e]

/-- The wrapper's checks read of the direction only whether it is reserved (R114). -/
theorem checkSample_setDir {s : State} {d : Direction} (hs : s.dir ≠ .reserved) (hd : d ≠ .reserved) (x : Sample)
    (rest : List Input) : checkSample (presentSample x rest (setDir d s)) = checkSample (presentSample x rest s) := by
  have same : outsideReset (presentSample x rest (setDir d s)) = outsideReset (presentSample x rest s) := by
    simp [outsideReset, beq_eq_false_iff_ne.mpr hs, beq_eq_false_iff_ne.mpr hd]
  rw [checkSample, same]
  rfl

/-- Two states that differ in a legal direction only stop with the same fault, or step to two states that again differ in a legal
direction only. -/
theorem step_setDir {s : State} {d : Direction} (hs : s.dir ≠ .reserved) (hd : d ≠ .reserved) :
    (∃ f, step s = .fault f ∧ step (setDir d s) = .fault f) ∨
    ∃ t e, t.dir ≠ .reserved ∧ e ≠ .reserved ∧ step s = .next t ∧ step (setDir d s) = .next (setDir e t) := by
  match hin : s.input with
  | [] => exact .inr ⟨s, d, hs, hd, endOfStreamLeavesState s hin, endOfStreamLeavesState (setDir d s) hin⟩
  | .config h c :: rest =>
    exact .inr ⟨driveConfig h c rest s, d, hs, hd, step_of_config hin, step_of_config (s := setDir d s) hin⟩
  | .reset :: rest =>
    exact .inr ⟨applyReset rest s, .idle, nofun, nofun, step_of_reset hin, step_of_reset (s := setDir d s) hin⟩
  | .sample x :: rest =>
    have hin' : (setDir d s).input = .sample x :: rest := hin
    cases check : checkSample (presentSample x rest s) with
    | some f =>
      refine .inl ⟨f, (step_sample_fault_iff hin f).mpr check, (step_sample_fault_iff hin' f).mpr ?_⟩
      rw [checkSample_setDir hs hd, check]
    | none =>
      have acc : Accepts s x := checkSample_presentSample_eq_none_iff.mp check
      have acc' : Accepts (setDir d s) x :=
        checkSample_presentSample_eq_none_iff.mp ((checkSample_setDir hs hd x rest).trans check)
      obtain ⟨u, m⟩ := acc.exists_moves rest
      obtain ⟨e, he, m'⟩ := m.with_dir d
      have hu : u.dir ≠ .reserved := m.dir_legal hs
      refine .inr ⟨loadPrevious u, e, hu, ?_, step_of_moves hin acc m, step_of_moves hin' acc' m'⟩
      rcases he with rfl | rfl
      · exact hd
      · exact hu

/-- Settles O45: by induction on the length of the two runs, each step by `step_setDir`. -/
theorem directionUnobservable : Obligations.DirectionUnobservable := by
  intro s d n hs hd
  induction n generalizing s d with
  | zero => exact rfl
  | succ n ih =>
    change SameButDir (core.run (n + 1) (setDir d s)) (core.run (n + 1) s)
    obtain ⟨f, e, e'⟩ | ⟨t, c, ht, hc, e, e'⟩ := step_setDir hs hd
    · rw [run_succ_of_fault (M := core) n e, run_succ_of_fault (M := core) n e']
      exact rfl
    · rw [run_succ_of_next (M := core) n e, run_succ_of_next (M := core) n e']
      exact ih t c ht hc

/-! ### A step on an accepted sample -/

/-- The wrapper's load after a move is what `afterSample` leaves, for a move touches neither the sample nor the stream. -/
theorem Moves.loadPrevious_eq {s u : State} {x : Sample} {rest : List Input} (m : Moves (presentSample x rest s) u) :
    loadPrevious u = afterSample x rest u := by
  obtain ⟨smp, input⟩ : u.smp = x ∧ u.input = rest := ⟨m.smp, m.input⟩
  simp only [loadPrevious, afterSample, ← smp, ← input]

/-- Settles O8: the transition of the state's move is the one that its selector decodes to. -/
theorem stepRunsDecodedTransition : Obligations.StepRunsDecodedTransition := by
  intro s x rest hin acc
  obtain ⟨u, m⟩ := acc.exists_moves rest
  obtain ⟨i, wf, fields, run⟩ := m.transition
  refine ⟨i, u, ?_, wf, run, by rw [step_of_moves hin acc m, m.loadPrevious_eq]⟩
  change decode (packFields (selectorFields (presentSample x rest s))) = .instr i
  rw [← fields]
  exact decode_encode i wf

/-- The second check is reached by samples in order only (R101, R136). -/
theorem checkSample_eq_unreachable_iff (p : State) :
    checkSample p = some .unreachable ↔ outOfOrder p = false ∧ outsideReset p = true := by
  unfold checkSample
  cases outOfOrder p <;> cases outsideReset p <;> simp

/-- The three kinds of state that R114 names. -/
theorem outsideReset_iff (s : State) :
    outsideReset s = true ↔ s.phase = .reserved ∨ s.dir = .reserved ∨ (s.prevValid = false ∧ s.phase ≠ .detect) := by
  simp [outsideReset, or_assoc]

/-- Settles O10: the wrapper's second check is R114's, and `RSVD.PHASE` only raises. -/
theorem unreachableFault : Obligations.UnreachableFault := by
  refine ⟨fun s x rest hin order => ?_, fun _ _ _ _ _ => rfl⟩
  have inOrder : (s.prevValid && decide (x.idx ≤ s.lastIdx)) = false := by simpa using order
  rw [step_sample_fault_iff hin, checkSample_eq_unreachable_iff, outsideReset_iff]
  exact and_iff_right inOrder

/-- Settles O11: the first sample's move changes nothing. -/
theorem firstSampleLoadsLevels : Obligations.FirstSampleLoadsLevels :=
  fun _ _ _ hin acc first => step_of_moves hin acc (.first first (acc.firstSample first))

/-- Settles O12: where the wait condition does not fire the move is to hold. -/
theorem holdStepLoadsLevels : Obligations.HoldStepLoadsLevels :=
  fun _ _ _ hin acc hv unfired => step_of_moves hin acc (.hold hv unfired)

/-- Settles O15: the clock rise is the move out of `HTOD_TRAIL`. -/
theorem htodTrailStep : Obligations.HtodTrailStep :=
  fun _ _ _ hin acc hv hp before now => step_of_moves hin acc (.trailHtod hv hp (edgeBetween_eq_rise.mpr ⟨before, now⟩))

/-- Settles O16: the data rise is the move out of `ACK_WAIT_DATA`. -/
theorem ackStartStep : Obligations.AckStartStep :=
  fun _ _ _ hin acc hv hp before now => step_of_moves hin acc (.startAck hv hp (edgeBetween_eq_rise.mpr ⟨before, now⟩))

/-- Settles O17: the clock rise is the move out of `ACK_WAIT_CLK`, and the ACK started no later than the last sample. -/
theorem ackEndStep : Obligations.AckEndStep :=
  fun _ _ _ hin acc hv hp before now =>
    ⟨step_of_moves hin acc (.endAck hv hp (edgeBetween_eq_rise.mpr ⟨before, now⟩)),
      fun inv => (inv.ackBefore hp).trans_lt (acc.inOrder hv)⟩

/-- Settles O18: the clock rise is the move out of `DTOH_TRAIL`. -/
theorem dtohTrailStep : Obligations.DtohTrailStep :=
  fun _ _ _ hin acc hv hp before now => step_of_moves hin acc (.trailDtoh hv hp (edgeBetween_eq_rise.mpr ⟨before, now⟩))

/-- With nothing captured, no slot is occupied (R61). -/
theorem BufferInvariant.bits_of_empty {s : State} {last : Nat} (b : BufferInvariant s last) (zero : s.count = 0) :
    s.bits = emptyBits := by
  refine Vector.ext fun i hi => ?_
  have vacant := b.occupancy ⟨i, hi⟩
  rw [zero] at vacant
  simpa [emptyBits] using vacant

/-- Settles O38: the sequence ends with a move that resets phase and direction, and since its frame's end nothing has been
captured. -/
theorem postFrameLeavesNoState : Obligations.PostFrameLeavesNoState := by
  intro s t x rest inv hin h waiting moved
  obtain ⟨-, u, m, rfl⟩ := (step_sample_iff hin).mp h
  have zero : s.count = 0 := by
    rcases waiting with hp | hp
    · exact (inv.r32.htodPostFrame (.inr (.inr hp))).1
    · exact (inv.r32.dtohPostFrame hp).1
  have empty : s.bits = emptyBits := (invariant_iff.mp inv).1.bits_of_empty zero
  cases m with
  | first | hold => exact absurd rfl moved
  | endAck | trailDtoh => exact ⟨rfl, zero, empty, rfl⟩
  | startHtod _ hp | startDtoh _ hp | sampleHtod _ hp | sampleDtoh _ hp | trailHtod _ hp | startAck _ hp =>
    rw [presentSample_phase] at hp
    simp [hp] at waiting

/-! ### The start of a frame -/

/-- With nothing captured, the DtoH start discards a 1 and takes a 0 as the start bit (R104, R82, R83). -/
theorem startDeviceToHost_of_empty {s : State} (zero : s.count = 0) :
    startDeviceToHost s =
      if s.smp.dat then { s with dir := .deviceToHost, phase := .dtohBit }
      else { s with
        dir := .deviceToHost, phase := .dtohBit, count := 1, bits := appendedBits s.bits 0 false s.smp.idx } := by
  cases dat : s.smp.dat with
  | true =>
    rw [startDeviceToHost, dat, capture_of_ignored (s := setDir .deviceToHost s) (.inr ⟨zero, rfl⟩)]
    rfl
  | false =>
    have vacuous : Occupied (setDir .deviceToHost s) (setDir .deviceToHost s).count.val := fun i hi => by simp [zero] at hi
    rw [startDeviceToHost, dat, capture_of_low (s := setDir .deviceToHost s) (by simp [zero]) (by simp), appendBit_eq,
      bits_appendBit _ _ (by simp [zero]) vacuous, setDir_count, zero]
    rfl

theorem edgeBetween_eq_fall {before now : Level} : edgeBetween before now = .fall ↔ before = true ∧ now = false := by
  cases before <;> cases now <;> decide

/-- Settles O13: a clock fall is the HtoD start's move, and without one a data edge is the DtoH start's. -/
theorem detectionPriority : Obligations.DetectionPriority := by
  intro s x rest hin acc hv hp zero
  have start := startDeviceToHost_of_empty (s := presentSample x rest s) zero
  have fall : edgeBetween s.prevClk x.clk = .fall ↔ s.prevClk = true ∧ x.clk = false := edgeBetween_eq_fall
  have dtoh : ¬ (s.prevClk = true ∧ x.clk = false) → edgeBetween s.prevDat x.dat ≠ .none →
      step s = .next (loadPrevious (startDeviceToHost (presentSample x rest s))) :=
    fun noFall edge => step_of_moves hin acc (.startDtoh hv hp (mt fall.mp noFall) edge)
  refine ⟨fun before now => ?_, fun noFall before now => ?_, fun noFall before now => ?_⟩
  · exact step_of_moves hin acc (.startHtod hv hp (fall.mpr ⟨before, now⟩))
  · rw [dtoh noFall (by simp [before, now, edgeBetween]), start, presentSample_smp, now]
    rfl
  · rw [dtoh noFall (by simp [before, now, edgeBetween]), start, presentSample_smp, now]
    rfl

/-! ### The transitions -/

/-- Settles O19: both transitions have no action. -/
theorem initAndHoldComplete : Obligations.InitAndHoldComplete :=
  fun _ => ⟨fun _ _ => rfl, fun _ _ _ _ _ => rfl⟩

/-- Settles O20: the transition is its two writes. -/
theorem detectHCompletes : Obligations.DetectHCompletes :=
  fun _ _ _ _ => rfl

/-- Settles O24: each transition is its writes. -/
theorem postFrameCompletes : Obligations.PostFrameCompletes :=
  fun _ _ _ _ => ⟨rfl, rfl, rfl, rfl⟩

/-- Two transitions with the same effect complete alike. -/
theorem next_both {u t : State} (e : u = t) :
    (.next u : Host.Outcome State Fault Refusal) = .next t ∧ (.next u : Host.Outcome State Fault Refusal) = .next t :=
  ⟨congrArg _ e, congrArg _ e⟩

/-- Settles O21: both transitions are the DtoH start. -/
theorem dtohDetectionCompletes : Obligations.DtohDetectionCompletes :=
  fun _ _ _ _ zero => next_both (startDeviceToHost_of_empty zero)

/-- A first sample with data 1 is discarded, and detection begins again (R83, R108). -/
theorem sampleBit_of_discarded (stay trail : Phase) {s : State} (zero : s.count = 0) (dat : s.smp.dat = true) :
    sampleBit stay trail s = { s with phase := .detect } := by
  rw [sampleBit, capture_of_ignored (.inr ⟨zero, dat⟩)]
  simp only [phaseAfterCapture, if_pos zero]
  rfl

/-- A full buffer is left alone (R81). -/
theorem sampleBit_of_full (stay trail : Phase) {s : State} (full : 10 < s.count) :
    sampleBit stay trail s = { s with phase := stay } := by
  have nonzero : s.count ≠ 0 := by rintro zero; simp [zero] at full
  rw [sampleBit, capture_of_ignored (.inl full)]
  simp only [phaseAfterCapture, if_neg nonzero]
  rfl

/-- One of the first ten bits is appended, and the phase stays (R82, R108). -/
theorem sampleBit_of_low (stay trail : Phase) {s : State} (low : s.count < 10) (kept : s.count ≠ 0 ∨ s.smp.dat = false)
    (occupied : Occupied s s.count.val) :
    sampleBit stay trail s =
      { s with
        phase := stay, count := s.count + 1, bits := appendedBits s.bits s.count.val s.smp.dat s.smp.idx } := by
  have room : s.count.val < 10 := low
  have captured : ∀ c : Fin 16, c < 10 → c + 1 ≠ 0 := by decide
  rw [sampleBit, capture_of_low low (by rintro ⟨zero, one⟩; simp [zero, one] at kept)]
  simp only [phaseAfterCapture, appendBit_count, captured _ low, if_false]
  rw [appendBit_eq, bits_appendBit _ _ (by omega) occupied]
  rfl

/-- The eleventh bit completes the frame, whose records are emitted and whose trailing edge is awaited next (R88, R93, R108). -/
theorem sampleBit_of_ten (stay trail : Phase) {s : State} {b : Fin 10 → Slot} (ten : s.count = 10)
    (captured : ∀ i : Fin 10, s.bits[i.val] = some (b i)) :
    sampleBit stay trail s =
      { s with
        phase := trail, count := 0, bits := emptyBits,
        out := s.out ++ recordsOfBits (completedBits b s.smp.dat s.smp.idx) } := by
  have slots := slotAt_completed s.smp.dat s.smp.idx ten fun i => slotAt_of_getElem (by omega) (captured i)
  rw [sampleBit, capture_of_ten ten]
  simp only [finalize_eq, frameRecords_eq_recordsOfBits slots]
  rw [synthesizeStopEnd_eq, appendBit_eq]
  rfl

/-- Settles O22: both transitions are the sampling transition of the HtoD phases. -/
theorem htodSamplingCompletes : Obligations.HtodSamplingCompletes := fun _ _ _ =>
  ⟨fun zero one => next_both (sampleBit_of_discarded .htodBit .htodTrail zero one),
    fun low kept occupied => next_both (sampleBit_of_low .htodBit .htodTrail low kept occupied),
    fun _ ten captured _ => next_both (sampleBit_of_ten .htodBit .htodTrail ten captured),
    fun full => next_both (sampleBit_of_full .htodBit .htodTrail full)⟩

/-- Settles O23: both transitions are the sampling transition of the DtoH phases. -/
theorem dtohSamplingCompletes : Obligations.DtohSamplingCompletes := fun _ _ _ =>
  ⟨fun zero one => next_both (sampleBit_of_discarded .dtohBit .dtohTrail zero one),
    fun low kept occupied => next_both (sampleBit_of_low .dtohBit .dtohTrail low kept occupied),
    fun _ ten captured _ => next_both (sampleBit_of_ten .dtohBit .dtohTrail ten captured),
    fun full => next_both (sampleBit_of_full .dtohBit .dtohTrail full)⟩

/-! ### No phase is terminal -/

/-- The clock edge on which a sample with data 1 takes the machine on; in `ACK_WAIT_DATA`, which waits for a data rise, the clock
may rise with it. -/
def clockTrigger (s : State) : Edge :=
  match s.phase with
  | .detect  => .fall
  | .htodBit => s.optHtodEdge.edge
  | .dtohBit => s.optDtohEdge.edge
  | _        => .rise

/-- `n` pulses from index `k` on: a sample that sets the lines up, with data level `quiet`, then one with the clock edge `trigger`
and data 1. -/
def pulses (trigger : Edge) (quiet : Level) : Nat → Nat → List Sample
  | 0, _ => []
  | n + 1, k =>
    { idx := k + 1, clk := levelBefore trigger true, dat := quiet } ::
      { idx := k + 2, clk := levelAfter trigger true, dat := true } :: pulses trigger quiet n (k + 2)

theorem length_pulses (trigger : Edge) (quiet : Level) (n k : Nat) : (pulses trigger quiet n k).length = 2 * n := by
  induction n generalizing k with
  | zero => rfl
  | succ n ih => simp [pulses, ih, Nat.mul_add]

/-- A data level that sets a pulse up: no data edge in `DETECT`, and 0 in `ACK_WAIT_DATA`. -/
structure SetsUp (s : State) (quiet : Level) : Prop where
  detect : s.phase = .detect → quiet = s.prevDat
  ackWaitData : s.phase = .ackWaitData → quiet = false

theorem exists_setsUp (s : State) : ∃ quiet, SetsUp s quiet := by
  by_cases hp : s.phase = .ackWaitData
  · exact ⟨false, by simp [hp], fun _ => rfl⟩
  · exact ⟨s.prevDat, fun _ => rfl, fun h => absurd h hp⟩

/-- The sample that sets a line up for an edge does not itself make it. -/
theorem edgeBetween_levelBefore {e : Edge} (he : e ≠ .none) (now : Level) : edgeBetween now (levelBefore e true) ≠ e := by
  cases e with
  | none => exact absurd rfl he
  | rise | fall => cases now <;> decide

/-- Between the two samples of a pulse the clock makes the edge. -/
theorem edgeBetween_pulse {e : Edge} (he : e ≠ .none) : edgeBetween (levelBefore e true) (levelAfter e true) = e := by
  cases e with
  | none => exact absurd rfl he
  | rise | fall => decide

theorem edge_ne_none (o : EdgeOpt) : o.edge ≠ .none := by cases o <;> decide

theorem clockTrigger_ne_none (s : State) : clockTrigger s ≠ .none := by
  unfold clockTrigger
  split
  · decide
  · exact edge_ne_none _
  · exact edge_ne_none _
  · decide

/-- The first sample of a pulse does not fire the wait condition (R55). -/
theorem fires_setUp {s : State} {quiet : Level} (legal : s.phase ≠ .reserved) (up : SetsUp s quiet) :
    s.phase.fires s.optHtodEdge s.optDtohEdge (edgeBetween s.prevClk (levelBefore (clockTrigger s) true))
      (edgeBetween s.prevDat quiet) = false := by
  have still := edgeBetween_levelBefore (clockTrigger_ne_none s) s.prevClk
  obtain ⟨detect, ack⟩ := up
  cases hp : s.phase <;> simp only [clockTrigger, hp] at still <;> simp [clockTrigger, hp, Phase.fires, still]
  case detect => simp [detect hp, edgeBetween]
  case ackWaitData => cases s.prevDat <;> simp [ack hp, edgeBetween]
  case reserved => exact legal hp

/-- The second sample of a pulse fires it. -/
theorem fires_pulse {s : State} {quiet : Level} (up : SetsUp s quiet) :
    s.phase.fires s.optHtodEdge s.optDtohEdge
      (edgeBetween (levelBefore (clockTrigger s) true) (levelAfter (clockTrigger s) true)) (edgeBetween quiet true) = true := by
  rw [edgeBetween_pulse (clockTrigger_ne_none s)]
  cases hp : s.phase <;> simp [clockTrigger, hp, Phase.fires]
  case ackWaitData => simp [up.ackWaitData hp, edgeBetween]

/-- A state of the invariant accepts every later sample. -/
theorem Invariant.accepts {s : State} (inv : Invariant s) {x : Sample} (later : s.lastIdx < x.idx) : Accepts s x :=
  ⟨fun _ => later, inv.r32.phaseLegal, inv.r32.dirLegal, fun first => (inv.r32.beforeFirstSample first).1⟩

/-- The invariant speaks neither of the sample at the ports nor of the stream. -/
theorem Invariant.presentSample {s : State} (inv : Invariant s) (x : Sample) (rest : List Input) :
    Invariant (presentSample x rest s) :=
  inv.of_same rfl rfl rfl rfl rfl rfl rfl

/-- The sample that sets a pulse up only loads the previous-level registers. -/
theorem step_setUp {s : State} (inv : Invariant s) {quiet : Level} (up : SetsUp s quiet) {x : Sample} {rest : List Input}
    (hin : s.input = .sample x :: rest) (later : s.lastIdx < x.idx) (clk : x.clk = levelBefore (clockTrigger s) true)
    (dat : x.dat = quiet) : step s = .next (afterSample x rest s) := by
  have acc := inv.accepts later
  cases hv : s.prevValid with
  | false => exact step_of_moves hin acc (.first hv (acc.firstSample hv))
  | true =>
    refine step_of_moves hin acc (.hold hv ?_)
    have unfired := fires_setUp acc.phaseLegal up
    rw [← clk, ← dat] at unfired
    exact unfired

/-- A move that fires with data 1 leaves its phase, unless it captures one of the bits after the first and before the last. -/
theorem Moves.leaves {p u : State} (m : Moves p u) (seen : p.prevValid = true)
    (fired : p.phase.fires p.optHtodEdge p.optDtohEdge (clockEdge p) (dataEdge p) = true) (one : p.smp.dat = true)
    (last : p.count = 0 ∨ p.count = 10) : u.phase ≠ p.phase := by
  cases m with
  | first hv hp => simp [hv] at seen
  | hold hv unfired => simp [unfired] at fired
  | sampleHtod hv hp edge | sampleDtoh hv hp edge =>
    rw [sampleBit_phase, hp]
    rcases last with h | h <;> simp [h, one]
  | startHtod _ hp | startDtoh _ hp | trailHtod _ hp | startAck _ hp | endAck _ hp | trailDtoh _ hp => simp [hp]

/-- A move that fires between a frame's first bit and its last counts one bit and stays. -/
theorem Moves.counts {p u : State} (m : Moves p u) (inv : Invariant p)
    (fired : p.phase.fires p.optHtodEdge p.optDtohEdge (clockEdge p) (dataEdge p) = true) (some : p.count ≠ 0)
    (notLast : p.count ≠ 10) : u.phase = p.phase ∧ u.count.val = p.count.val + 1 := by
  have capturing := inv.r32.capturingPhase (Fin.pos_iff_ne_zero.mpr some)
  have low : p.count < 10 := lt_of_le_of_ne inv.r32.countAtMostTen notLast
  cases m with
  | first hv hp => exact absurd (inv.prevValid_of_captured some) (by simp [hv])
  | hold hv unfired => simp [unfired] at fired
  | sampleHtod hv hp edge | sampleDtoh hv hp edge =>
    obtain ⟨full, -⟩ | ⟨zero, -⟩ | ⟨ten, -⟩ | ⟨-, -, e⟩ := sampleBit_cases _ _ p
    · exact absurd full (by omega)
    · exact absurd zero some
    · exact absurd ten notLast
    · rw [e, hp]
      exact ⟨rfl, appendBit_count_val p.smp.dat p.smp.idx (by omega)⟩
  | startHtod hv hp | startDtoh hv hp | trailHtod hv hp | startAck hv hp | endAck hv hp | trailDtoh hv hp =>
    simp [hp] at capturing

/-- No move touches the options (R29). -/
theorem Moves.options {p u : State} (m : Moves p u) : u.optHtodEdge = p.optHtodEdge ∧ u.optDtohEdge = p.optDtohEdge := by
  obtain ⟨i, -, -, run⟩ := m.transition
  rw [exec_next_keeps run]
  exact ⟨rfl, rfl⟩

/-- What one pulse does: `t` is the state after it, with `rest` still to come. -/
structure AfterPulse (s t : State) (rest : List Input) : Prop where
  inv : Invariant t
  input : t.input = rest
  lastIdx : t.lastIdx = s.lastIdx + 2
  options : t.optHtodEdge = s.optHtodEdge ∧ t.optDtohEdge = s.optDtohEdge
  leaves : s.count = 0 ∨ s.count = 10 → t.phase ≠ s.phase
  counts : s.count ≠ 0 → s.count ≠ 10 → t.phase = s.phase ∧ t.count.val = s.count.val + 1

/-- A run whose first two steps answer next states is the rest of the run from there. -/
theorem run_two {s t u : State} (first : step s = .next t) (second : step t = .next u) (k : Nat) :
    core.run (k + 2) s = core.run k u :=
  (run_succ_of_next (M := core) (k + 1) first).trans (run_succ_of_next (M := core) k second)

/-- A pulse sets the lines up and then fires the wait condition. -/
theorem run_pulse {s : State} (inv : Invariant s) {quiet : Level} (up : SetsUp s quiet) {n : Nat}
    (hin : s.input = (pulses (clockTrigger s) quiet (n + 1) s.lastIdx).map .sample) :
    ∃ t, AfterPulse s t ((pulses (clockTrigger s) quiet n (s.lastIdx + 2)).map .sample) ∧
      ∀ k, core.run (k + 2) s = core.run k t := by
  have first := step_setUp inv up hin (Nat.lt_succ_self _) rfl rfl
  have inv₁ := stepKeepsInvariant _ _ inv first
  have acc := inv₁.accepts (x := ⟨s.lastIdx + 2, levelAfter (clockTrigger s) true, true⟩) (Nat.lt_succ_self _)
  obtain ⟨u, m⟩ := acc.exists_moves ((pulses (clockTrigger s) quiet n (s.lastIdx + 2)).map .sample)
  have second := step_of_moves rfl acc m
  have fired := fires_pulse up
  exact ⟨loadPrevious u, ⟨stepKeepsInvariant _ _ inv₁ second, m.input, congrArg Sample.idx m.smp, m.options,
    m.leaves rfl fired rfl, m.counts (inv₁.presentSample _ _) fired⟩, run_two first second⟩

/-- How many pulses take the machine out of its phase: one, or one for each bit still missing. -/
def pulsesToLeave (s : State) : Nat :=
  if s.count = 0 then 1 else 11 - s.count.val

theorem AfterPulse.clockTrigger_eq {s t : State} {rest : List Input} (after : AfterPulse s t rest)
    (same : t.phase = s.phase) : clockTrigger t = clockTrigger s := by
  obtain ⟨htod, dtoh⟩ := after.options
  rw [clockTrigger, clockTrigger, same, htod, dtoh]

/-- In the sampling phases every data level sets a pulse up. -/
theorem Invariant.setsUp {s : State} (inv : Invariant s) (captured : s.count ≠ 0) (quiet : Level) : SetsUp s quiet := by
  have capturing := inv.r32.capturingPhase (Fin.pos_iff_ne_zero.mpr captured)
  exact ⟨fun hp => by simp [hp] at capturing, fun hp => by simp [hp] at capturing⟩

/-- In a state of the invariant that many pulses leave the phase: all but the last of them count a bit and stay. -/
theorem run_pulses {n : Nat} {s : State} (inv : Invariant s) {quiet : Level} (up : SetsUp s quiet)
    (enough : pulsesToLeave s = n + 1) (hin : s.input = (pulses (clockTrigger s) quiet (n + 1) s.lastIdx).map .sample) :
    ∃ t, core.run (2 * (n + 1)) s = .next t ∧ t.phase ≠ s.phase := by
  rw [pulsesToLeave] at enough
  induction n generalizing s with
  | zero =>
    obtain ⟨t, after, run⟩ := run_pulse inv up hin
    refine ⟨t, run 0, after.leaves ?_⟩
    by_cases zero : s.count = 0
    · exact .inl zero
    · rw [if_neg zero] at enough
      exact .inr (Fin.ext (show s.count.val = 10 by omega))
  | succ n ih =>
    obtain ⟨t, after, run⟩ := run_pulse inv up hin
    have some : s.count ≠ 0 := fun zero => by simp [zero] at enough
    have notLast : s.count ≠ 10 := fun ten => by simp [ten] at enough
    rw [if_neg some] at enough
    obtain ⟨same, count⟩ := after.counts some notLast
    have some' : t.count ≠ 0 := fun zero => by simp [zero] at count
    have hin' : t.input = (pulses (clockTrigger t) quiet (n + 1) t.lastIdx).map .sample := by
      rw [after.input, after.clockTrigger_eq same, after.lastIdx]
    obtain ⟨u, runs, left⟩ := ih after.inv (after.inv.setsUp some' quiet) (by rw [if_neg some']; omega) hin'
    exact ⟨u, (run _).trans runs, same ▸ left⟩

/-- Settles O47: as many pulses as `pulsesToLeave` says, at most ten, take the machine out of its phase. -/
theorem everyPhaseCanBeLeft : Obligations.EveryPhaseCanBeLeft := by
  intro s inv
  obtain ⟨quiet, up⟩ := exists_setsUp s
  have small : s.count.val ≤ 10 := inv.r32.countAtMostTen
  obtain ⟨n, enough, few⟩ : ∃ n, pulsesToLeave s = n + 1 ∧ n < 10 := by
    rw [pulsesToLeave]
    split
    case isTrue => exact ⟨0, rfl, by omega⟩
    case isFalse some =>
      have pos : s.count.val ≠ 0 := fun zero => some (Fin.ext zero)
      exact ⟨10 - s.count.val, by omega, by omega⟩
  have length := length_pulses (clockTrigger s) quiet (n + 1) s.lastIdx
  have inv' : Invariant { s with input := (pulses (clockTrigger s) quiet (n + 1) s.lastIdx).map .sample } :=
    inv.of_same rfl rfl rfl rfl rfl rfl rfl
  obtain ⟨t, run, left⟩ := run_pulses inv' ⟨up.detect, up.ackWaitData⟩ enough rfl
  exact ⟨pulses (clockTrigger s) quiet (n + 1) s.lastIdx, t, by omega, by rw [length]; exact run, left⟩

end Sys2Proof.Machine
end

section
/-! Proofs of the statements about exceptions (60_exceptions.md). A stream in order gives the wrapper's check of the index, and the
invariant the others; so the step answers a next state, which again keeps the invariant and has a stream in order before it. -/

namespace Sys2Proof.Machine

theorem lastSample_of_prevValid {s : State} (seen : s.prevValid = true) : lastSample s = some s.lastIdx :=
  if_pos seen

theorem streamInOrder_sample_iff {last : Option Nat} {x : Sample} {rest : List Input} :
    StreamInOrder last (.sample x :: rest) ↔ (∀ k, last = some k → k < x.idx) ∧ StreamInOrder (some x.idx) rest := by
  cases last <;> simp [StreamInOrder]

theorem streamInOrder_config_iff {last : Option Nat} {h d : EdgeOpt} {rest : List Input} :
    StreamInOrder last (.config h d :: rest) ↔ StreamInOrder last rest := by
  cases last <;> simp [StreamInOrder]

theorem streamInOrder_reset_iff {last : Option Nat} {rest : List Input} :
    StreamInOrder last (.reset :: rest) ↔ StreamInOrder none rest := by
  cases last <;> simp [StreamInOrder]

/-- In a state of the invariant the wrapper accepts the next sample of a stream that keeps R72 (R101, R114). -/
theorem Invariant.accepts_of_streamInOrder {s : State} (inv : Invariant s) {x : Sample} {rest : List Input}
    (order : StreamInOrder (lastSample s) (.sample x :: rest)) : Accepts s x :=
  ⟨fun seen => (streamInOrder_sample_iff.mp order).1 s.lastIdx (lastSample_of_prevValid seen),
    inv.r32.phaseLegal, inv.r32.dirLegal, fun first => (inv.r32.beforeFirstSample first).1⟩

/-- Every step on a stream in order answers a next state, and the rest of the stream is in order from there. -/
theorem Invariant.step_streamInOrder {s : State} (inv : Invariant s) (order : StreamInOrder (lastSample s) s.input) :
    ∃ t, step s = .next t ∧ StreamInOrder (lastSample t) t.input := by
  match hin : s.input with
  | [] => exact ⟨s, endOfStreamLeavesState s hin, order⟩
  | .config h d :: rest =>
    rw [hin, streamInOrder_config_iff] at order
    exact ⟨driveConfig h d rest s, step_of_config hin, order⟩
  | .reset :: rest =>
    rw [hin, streamInOrder_reset_iff] at order
    exact ⟨applyReset rest s, step_of_reset hin, order⟩
  | .sample x :: rest =>
    rw [hin] at order
    have acc := inv.accepts_of_streamInOrder order
    obtain ⟨u, m⟩ := acc.exists_moves rest
    refine ⟨loadPrevious u, step_of_moves hin acc m, ?_⟩
    rw [m.loadPrevious_eq]
    exact (streamInOrder_sample_iff.mp order).2

/-- Settles O42: by induction on the length of the run, for each step keeps the invariant and the order of the stream. -/
theorem orderedStreamsNeverFault : Obligations.OrderedStreamsNeverFault := by
  intro s n inv order
  induction n generalizing s with
  | zero => exact ⟨s, rfl⟩
  | succ n ih =>
    obtain ⟨t, next, order'⟩ := inv.step_streamInOrder order
    rw [run_succ_of_next (M := core) n next]
    exact ih t (stepKeepsInvariant s t inv next) order'

end Sys2Proof.Machine
end

section
/-! Proofs of the statements about reset and hazards (70_reset_and_hazards.md). A reset is one equation of the step; what a step on a
sample can emit and can write is already said once for its move, so each statement about every step splits on the input taken. -/

namespace Sys2Proof.Machine

/-! ### The first sampling edge -/

/-- A first sample with data 0 is the start bit, and the phase stays (R82, R108). -/
theorem sampleBit_of_start (stay trail : Phase) {s : State} (zero : s.count = 0) (dat : s.smp.dat = false) :
    sampleBit stay trail s =
      { s with phase := stay, count := 1, bits := appendedBits s.bits 0 false s.smp.idx } := by
  have vacuous : Occupied s s.count.val := fun i hi => by simp [zero] at hi
  rw [sampleBit_of_low stay trail (by simp [zero]) (.inr dat) vacuous, zero, dat]
  rfl

/-- A step that samples with nothing captured discards a 1 and takes a 0 as the start bit, whatever the direction (R161). -/
theorem step_of_first_sampling {s : State} {x : Sample} {rest : List Input} (hin : s.input = .sample x :: rest)
    (acc : Accepts s x) (zero : s.count = 0) {stay trail : Phase} (hp : s.phase = stay)
    (m : Moves (presentSample x rest s) (sampleBit stay trail (presentSample x rest s))) :
    (x.dat = true → step s = .next (afterSample x rest { s with phase := .detect })) ∧
    (x.dat = false → step s = .next (afterSample x rest
      { s with count := 1, bits := appendedBits s.bits 0 false x.idx })) := by
  subst hp
  rw [step_of_moves hin acc m]
  refine ⟨fun one => ?_, fun start => ?_⟩
  · rw [sampleBit_of_discarded _ _ (s := presentSample x rest s) zero one]
    rfl
  · rw [sampleBit_of_start _ _ (s := presentSample x rest s) zero start]
    rfl

/-- Settles O14: the awaited clock edge is the sampling move of either direction. -/
theorem firstSamplingEdge : Obligations.FirstSamplingEdge := by
  rintro s x rest hin acc hv zero (⟨hp, edge⟩ | ⟨hp, edge⟩)
  · exact step_of_first_sampling hin acc zero hp (.sampleHtod hv hp edge)
  · exact step_of_first_sampling hin acc zero hp (.sampleDtoh hv hp edge)

/-! ### The options -/

/-- A step that takes no reset keeps the options (R29, R49). -/
theorem step_options_of_no_reset {s t : State} (h : step s = .next t) (noReset : ∀ rest, s.input ≠ .reset :: rest) :
    t.optHtodEdge = s.optHtodEdge ∧ t.optDtohEdge = s.optDtohEdge := by
  match hin : s.input with
  | .reset :: rest => exact absurd hin (noReset rest)
  | .sample x :: rest =>
    obtain ⟨-, u, m, rfl⟩ := (step_sample_iff hin).mp h
    exact m.options
  | .config c d :: rest =>
    cases (step_of_config hin).symm.trans h
    exact ⟨rfl, rfl⟩
  | [] =>
    cases (endOfStreamLeavesState s hin).symm.trans h
    exact ⟨rfl, rfl⟩

/-- Settles O32: only a reset's effect names the options, and the effect of driving the inputs names only the inputs. -/
theorem optionsChangeOnlyAtReset : Obligations.OptionsChangeOnlyAtReset := by
  refine ⟨fun s t h => ⟨step_options_of_no_reset h, fun rest hin => ?_, fun c d rest hin => ?_⟩, rfl, rfl⟩
  · cases (step_of_reset hin).symm.trans h
    exact ⟨rfl, rfl⟩
  · cases (step_of_config hin).symm.trans h
    rfl

/-! ### The records of a step -/

/-- Settles O34: the move of a sample emits nothing, a completed frame or one `ack`, and only the frame takes `count` from 10 to
0; no other input emits. -/
theorem recordsPerStep : Obligations.RecordsPerStep := by
  intro s t h
  by_cases sampled : ∃ x rest, s.input = .sample x :: rest
  case neg =>
    have out := step_out_of_no_sample h (by simpa using sampled)
    exact ⟨[], by simp [out], fun completes => absurd completes.1 sampled, fun _ => Nat.zero_le 1⟩
  obtain ⟨x, rest, hin⟩ := sampled
  obtain ⟨-, u, m, rfl⟩ := (step_sample_iff hin).mp h
  rcases m.emits with ⟨out, unfinished⟩ | ⟨ten, zero, out⟩ | ⟨same, out⟩
  · exact ⟨[], by simp [out], fun ⟨_, ten, zero⟩ => absurd zero (unfinished ten), fun _ => Nat.zero_le 1⟩
  · exact ⟨_, out, fun _ => frameRecords_length _, fun other => absurd ⟨⟨x, rest, hin⟩, ten, zero⟩ other⟩
  · refine ⟨_, out, fun ⟨_, ten, zero⟩ => ?_, fun _ => Nat.le_refl 1⟩
    have still : u.count = 10 := same.trans ten
    exact absurd (still.symm.trans zero) (by decide)

/-! ### A reset -/

/-- Settles O30: the reset's effect is `applyReset`, which writes each of these. -/
theorem resetBeginsRun : Obligations.ResetBeginsRun :=
  fun _ rest hin => ⟨applyReset rest _, step_of_reset hin, rfl, rfl, rfl, rfl, rfl, rfl, rfl, rfl, rfl, rfl, rfl, rfl⟩

end Sys2Proof.Machine
end
